-- ==== Sys2Proof/Word.lean ====
section
/-! DEFINITION. The block's data unit, the 8-bit byte, and the widths and narrowings of the spec
(00_scope.md R8, R10, R13). -/

namespace Sys2Proof

/-- One byte: every field of the wire format, every bus register and every buffer element (R8). -/
abbrev Byte := BitVec 8

/-- A task operation's result: a signed 16-bit integer in two's complement (R13). -/
abbrev Result := BitVec 16

/-- A statistics counter: 32-bit unsigned, wrapping (10_state.md R33). -/
abbrev Counter := BitVec 32

/-- `u8(n)`: n mod 256 (R10). -/
abbrev u8 (n : Nat) : Byte := BitVec.ofNat 8 n

/-- `sext_16(v)` of a byte (R10). -/
abbrev sext16 (v : Byte) : BitVec 16 := v.signExtend 16

end Sys2Proof
end

