-- ==== Sys2Proof/Config.lean ====
section
/-! DEFINITION. What is fixed for one instance of the block: the constants of 00_scope.md R6, the
parameters of R7, and the free values that stand for what the spec leaves open. -/

namespace Sys2Proof

/-- Bytes of `address`, `phy_src` and `flags` counted in `length` (R6). -/
abbrev hdrLen : Nat := 3
/-- The most bytes one frame may put on or take off the bus, length byte included (R6). -/
abbrev maxFrame : Nat := 255
/-- The largest legal `length` field: MAX_FRAME - 1 (R6). -/
abbrev maxLength : Nat := maxFrame - 1
/-- The largest payload: MAX_LENGTH - HDR_LEN (R6). -/
abbrev maxData : Nat := maxLength - hdrLen
/-- The number of radio states (R6). -/
abbrev numStates : Nat := 6
/-- The reserved node address (R6). -/
abbrev broadcast : Byte := 0x00
/-- The length of the link-layer interface identifier in bytes (R6). -/
abbrev iidLen : Nat := 8
/-- POLL_MAX: the bound on SEND's sleeps (R7; 92_eei_decisions.md D16). -/
abbrev pollMax : Nat := 100

/-- A change of the event pin (42_fsm_isr.md R133). -/
inductive Edge where
  | rising
  | falling
  deriving DecidableEq, Repr

/-- The values of the parameter EDGE_SENSE (R7). -/
inductive EdgeSense where
  | rising
  | falling
  | both
  deriving DecidableEq, Repr

/-- EDGE_SENSE = BOTH: a fixed decision of the spec (R7; D9). -/
abbrev edgeSense : EdgeSense := .both

/-- The OPEN parameters of R7 that a rule reads. One record, so that a statement about every machine
quantifies over it. -/
structure Params where
  chanMin : Byte
  chanMax : Byte
  chanDefault : Byte
  addrDefault : Byte
  deviceTypeId : BitVec 16
  protoTag : BitVec 16
  rxStatusClean : Byte
  regTxFifo : Byte
  regRxFifo : Byte
  regTxBytes : Byte
  regRxBytes : Byte
  regRxStatus : Byte
  regRssi : Byte
  regLqi : Byte
  regChannel : Byte
  strobeIdle : Byte
  strobeFlushTx : Byte
  strobeTx : Byte
  strobeRx : Byte
  initArmsRx : Bool
  latchWhileMasked : Bool
  deriving DecidableEq, Repr, Inhabited

/-- The eight transceiver register identifiers (R7). -/
def Params.registers (p : Params) : List Byte :=
  [p.regTxFifo, p.regRxFifo, p.regTxBytes, p.regRxBytes, p.regRxStatus, p.regRssi, p.regLqi, p.regChannel]

/-- The four strobe codes (R7). -/
def Params.strobes (p : Params) : List Byte :=
  [p.strobeIdle, p.strobeFlushTx, p.strobeTx, p.strobeRx]

/-- The constraints the spec puts on the OPEN parameters: CHAN_MIN <= CHAN_DEFAULT <= CHAN_MAX,
ADDR_DEFAULT in 1..255, distinct register identifiers, distinct strobe codes (R7; the table of OPEN
parameters in 92_eei_decisions.md). -/
abbrev Params.wf (p : Params) : Prop :=
  p.chanMin ≤ p.chanDefault ∧ p.chanDefault ≤ p.chanMax ∧ p.addrDefault ≠ broadcast ∧
    p.registers.Nodup ∧ p.strobes.Nodup

/-- The test configuration TC of 95_test_vectors.md, with register identifiers and strobe codes made
concrete (the spec leaves those symbolic: DESIGN CHOICE, log 4). -/
def Params.testConfig : Params where
  chanMin := 0
  chanMax := 9
  chanDefault := 0
  addrDefault := 1
  deviceTypeId := 0x0102
  protoTag := 0x0304
  rxStatusClean := 0xC1
  regTxFifo := 0xE0
  regRxFifo := 0xE1
  regTxBytes := 0xE2
  regRxBytes := 0xE3
  regRxStatus := 0xE4
  regRssi := 0xE5
  regLqi := 0xE6
  regChannel := 0xE7
  strobeIdle := 0x51
  strobeFlushTx := 0x52
  strobeTx := 0x53
  strobeRx := 0x54
  initArmsRx := false
  latchWhileMasked := false

/-- The parameters of the machine that `State.reset` starts: not known (OPEN, R7), so nothing can be
proved of them (log 4). -/
opaque Config.rawParams : Params

/-- The parameters of the machine that `State.reset` starts, held to the constraints of R7: where the
unknown ones break them, a configuration that keeps them stands in (log 4). -/
def Config.resetParams : Params :=
  if Config.rawParams.wf then Config.rawParams else Params.testConfig

/-- The free value of an answer of the transceiver: "The value is a draw" (10_state.md R42). The
argument counts the draws, so that two draws are not known to agree (log 3). -/
opaque Config.freeByte : Nat → Byte

end Sys2Proof
end

