-- ==== Sys2Proof/Syntax.lean ====
section
/-! DEFINITION. The instruction set: one constructor for each row of spec/opcode_table.json, in the
table's order and its three formats (30_encoding.md R77 to R90). A row's free bits are arguments. -/

namespace Sys2Proof

/-- One row of spec/opcode_table.json each. -/
inductive Instr where
  -- format cmd: the command byte and its operand bytes (R77 to R81)
  /-- 0x10, no operands (44_adapter.md R166). -/
  | init
  /-- 0x20, then the frame F: F[0] = length, then F[0] bytes (41_send_tx.md R113). -/
  | send (frame : List Byte)
  /-- 0x30, then max_len (R167). -/
  | receive (maxLen : Byte)
  /-- 0x40 to 0x45, then max_len (R169). -/
  | getDeviceType (maxLen : Byte)
  | getProto (maxLen : Byte)
  | getChannel (maxLen : Byte)
  | getAddress (maxLen : Byte)
  | getMaxFrame (maxLen : Byte)
  | getIid (maxLen : Byte)
  /-- 0x46 to 0x4F: reserved options; max_len is consumed (R176). -/
  | getOpt6 (maxLen : Byte)
  | getOpt7 (maxLen : Byte)
  | getOpt8 (maxLen : Byte)
  | getOpt9 (maxLen : Byte)
  | getOptA (maxLen : Byte)
  | getOptB (maxLen : Byte)
  | getOptC (maxLen : Byte)
  | getOptD (maxLen : Byte)
  | getOptE (maxLen : Byte)
  | getOptF (maxLen : Byte)
  /-- 0x50 to 0x55, then vlen and vlen value bytes (R177). -/
  | setDeviceType (value : List Byte)
  | setProto (value : List Byte)
  | setChannel (value : List Byte)
  | setAddress (value : List Byte)
  | setMaxFrame (value : List Byte)
  | setIid (value : List Byte)
  /-- 0x56 to 0x5F: reserved options; vlen and the value are consumed (R181). -/
  | setOpt6 (value : List Byte)
  | setOpt7 (value : List Byte)
  | setOpt8 (value : List Byte)
  | setOpt9 (value : List Byte)
  | setOptA (value : List Byte)
  | setOptB (value : List Byte)
  | setOptC (value : List Byte)
  | setOptD (value : List Byte)
  | setOptE (value : List Byte)
  | setOptF (value : List Byte)
  /-- 0x00 to 0x0F: OPC 0 (R182). -/
  | illegalOpc0 (opt : BitVec 4)
  /-- 0x11; 0x12, 0x13; 0x14 to 0x17; 0x18 to 0x1F: INIT with OPT other than 0 (R85, R182). -/
  | illegalInit1
  | illegalInit2 (low : BitVec 1)
  | illegalInit4 (low : BitVec 2)
  | illegalInit8 (low : BitVec 3)
  /-- 0x21; 0x22, 0x23; 0x24 to 0x27; 0x28 to 0x2F: SEND with OPT other than 0. -/
  | illegalSend1
  | illegalSend2 (low : BitVec 1)
  | illegalSend4 (low : BitVec 2)
  | illegalSend8 (low : BitVec 3)
  /-- 0x31; 0x32, 0x33; 0x34 to 0x37; 0x38 to 0x3F: RECEIVE with OPT other than 0. -/
  | illegalReceive1
  | illegalReceive2 (low : BitVec 1)
  | illegalReceive4 (low : BitVec 2)
  | illegalReceive8 (low : BitVec 3)
  /-- 0x60 to 0x7F: OPC 6 and 7. -/
  | illegalOpc6 (low : BitVec 5)
  /-- 0x80 to 0xFF: OPC 8 to F. -/
  | illegalOpc8 (low : BitVec 7)
  -- format dispatch_key: K = (state, L), R90
  /-- K = 0x0 to 0x3: Unknown or Idle, either level (42_fsm_isr.md R144). -/
  | dispatchUnhandled (low : BitVec 2)
  /-- K = 0x4: Receiving, low (R139). -/
  | dispatchRxRearm
  /-- K = 0x5: Receiving, high (R138). -/
  | dispatchRxStart
  /-- K = 0x6: ReceivingBusy, low (R140). -/
  | dispatchRxComplete
  /-- K = 0x7: ReceivingBusy, high (R141). -/
  | dispatchMissedEdge
  /-- K = 0x8: Transmitting, low (R142). -/
  | dispatchTxDone
  /-- K = 0x9: Transmitting, high (R143). -/
  | dispatchTxBusy
  /-- K = 0xA, 0xB: PowerDown, either level (R144). -/
  | dispatchUnhandledPowerDown (level : BitVec 1)
  /-- K = 0xC to 0xF: reserved state codes (R145). -/
  | dispatchInvalid (low : BitVec 2)
  -- format bus_record: one completed bus primitive, R89
  /-- `Rd(r, v)`: BusRead of r, answered v. -/
  | recRd (r v : Byte)
  /-- `Wr(r, v)`: BusWrite. -/
  | recWr (r v : Byte)
  /-- `BRd(r, b)`: BurstRead of r, answered b. -/
  | recBrd (r : Byte) (b : List Byte)
  /-- `BWr(r, b)`: BurstWrite. -/
  | recBwr (r : Byte) (b : List Byte)
  /-- `St(c)`: Strobe. -/
  | recSt (c : Byte)
  /-- kind 5: reserved, never produced. -/
  | recReserved5
  /-- kinds 6 and 7: reserved, never produced. -/
  | recReserved6 (low : BitVec 1)
  deriving DecidableEq, Repr

/-- The three formats of spec/opcode_table.json. Each is read from its own place: commands from the
command port, keys from (state, level), records from a serialised bus trace. -/
inductive Format where
  | cmd
  | key
  | record
  deriving DecidableEq, Repr

/-- The format of each row. -/
def Instr.format : Instr → Format
  | .dispatchUnhandled _ | .dispatchRxRearm | .dispatchRxStart | .dispatchRxComplete
  | .dispatchMissedEdge | .dispatchTxDone | .dispatchTxBusy | .dispatchUnhandledPowerDown _
  | .dispatchInvalid _ => .key
  | .recRd _ _ | .recWr _ _ | .recBrd _ _ | .recBwr _ _ | .recSt _ | .recReserved5
  | .recReserved6 _ => .record
  | .init | .send _ | .receive _
  | .getDeviceType _ | .getProto _ | .getChannel _ | .getAddress _ | .getMaxFrame _ | .getIid _
  | .getOpt6 _ | .getOpt7 _ | .getOpt8 _ | .getOpt9 _ | .getOptA _ | .getOptB _ | .getOptC _
  | .getOptD _ | .getOptE _ | .getOptF _
  | .setDeviceType _ | .setProto _ | .setChannel _ | .setAddress _ | .setMaxFrame _ | .setIid _
  | .setOpt6 _ | .setOpt7 _ | .setOpt8 _ | .setOpt9 _ | .setOptA _ | .setOptB _ | .setOptC _
  | .setOptD _ | .setOptE _ | .setOptF _
  | .illegalOpc0 _ | .illegalInit1 | .illegalInit2 _ | .illegalInit4 _ | .illegalInit8 _
  | .illegalSend1 | .illegalSend2 _ | .illegalSend4 _ | .illegalSend8 _
  | .illegalReceive1 | .illegalReceive2 _ | .illegalReceive4 _ | .illegalReceive8 _
  | .illegalOpc6 _ | .illegalOpc8 _ => .cmd

end Sys2Proof
end

