-- ==== Sys2Proof/WellFormed.lean ====
section
/-! DEFINITION. Which instruction terms have an encoding (30_encoding.md R80, R89): the operand bytes
must have the length their own count byte gives. -/

namespace Sys2Proof

/-- SEND's operand: at least the length byte, and exactly F[0] further bytes (R80, R92). -/
def frameOperandWf : List Byte → Bool
  | [] => false
  | l :: rest => rest.length == l.toNat

/-- A byte string whose count fits the one-byte count `vlen` (R80) or `n` (R89). -/
def countedWf (b : List Byte) : Bool := decide (b.length < 256)

/-- Well-formedness of an instruction term. -/
def Instr.wf : Instr → Bool
  | .send f => frameOperandWf f
  | .setDeviceType v | .setProto v | .setChannel v | .setAddress v | .setMaxFrame v | .setIid v
  | .setOpt6 v | .setOpt7 v | .setOpt8 v | .setOpt9 v | .setOptA v | .setOptB v | .setOptC v
  | .setOptD v | .setOptE v | .setOptF v => countedWf v
  | .recBrd _ b | .recBwr _ b => countedWf b
  | .init | .receive _
  | .getDeviceType _ | .getProto _ | .getChannel _ | .getAddress _ | .getMaxFrame _ | .getIid _
  | .getOpt6 _ | .getOpt7 _ | .getOpt8 _ | .getOpt9 _ | .getOptA _ | .getOptB _ | .getOptC _
  | .getOptD _ | .getOptE _ | .getOptF _
  | .illegalOpc0 _ | .illegalInit1 | .illegalInit2 _ | .illegalInit4 _ | .illegalInit8 _
  | .illegalSend1 | .illegalSend2 _ | .illegalSend4 _ | .illegalSend8 _
  | .illegalReceive1 | .illegalReceive2 _ | .illegalReceive4 _ | .illegalReceive8 _
  | .illegalOpc6 _ | .illegalOpc8 _
  | .dispatchUnhandled _ | .dispatchRxRearm | .dispatchRxStart | .dispatchRxComplete
  | .dispatchMissedEdge | .dispatchTxDone | .dispatchTxBusy | .dispatchUnhandledPowerDown _
  | .dispatchInvalid _
  | .recRd _ _ | .recWr _ _ | .recSt _ | .recReserved5 | .recReserved6 _ => true

end Sys2Proof
end

