-- ==== Sys2Proof/Decode.lean ====
section
/-! DEFINITION. From bytes to instructions and back (30_encoding.md R77 to R92): three decoders, one for
each format of spec/opcode_table.json, each total and rejecting by name, and the encoder. -/

namespace Sys2Proof

/-- Why a decoder answers no instruction. -/
inductive DecodeError where
  /-- The bytes end before the instruction's operand bytes do: the port waits for more (R80). -/
  | incomplete
  /-- A byte of a dispatch key is above 0xF: K is four bits (R90). -/
  | notAKey
  /-- A bus record's header is not `{kind[2:0], 00000}` (R89). -/
  | badHeader
  deriving DecidableEq, Repr

/-- `cmd[7:4]` (R77). -/
def opcOf (c : Byte) : BitVec 4 := c.extractLsb' 4 4

/-- `cmd[3:0]` (R77). -/
def optOf (c : Byte) : BitVec 4 := c.extractLsb' 0 4

/-- Exactly n bytes, with what follows them; none where there are fewer. -/
def takeExactly : Nat → List Byte → Option (List Byte × List Byte)
  | 0, bs => some ([], bs)
  | _ + 1, [] => none
  | n + 1, b :: bs =>
    match takeExactly n bs with
    | none => none
    | some (x, rest) => some (b :: x, rest)

/-- A count byte and that many further bytes, with what follows them: SET's `vlen` and value (R80) and
a burst record's `n` and bytes (R89). -/
def takeCounted : List Byte → Option (List Byte × List Byte)
  | [] => none
  | n :: bs => takeExactly n.toNat bs

/-- SEND's operand: the frame `F`, first `F[0]`, then `F[0]` further bytes (R80). -/
def takeFrame : List Byte → Option (List Byte × List Byte)
  | [] => none
  | l :: bs =>
    match takeExactly l.toNat bs with
    | none => none
    | some (x, rest) => some (l :: x, rest)

/-- An instruction made from an operand that may still be incomplete. -/
def withOperand {α : Type} (f : α → Instr) : Option (α × List Byte) → Except DecodeError (Instr × List Byte)
  | none => .error .incomplete
  | some (x, rest) => .ok (f x, rest)

/-- A one-byte operand: `max_len` (R80). -/
def takeByte : List Byte → Option (Byte × List Byte)
  | [] => none
  | b :: bs => some (b, bs)

/-- INIT's row for each OPT: 0 is INIT, any other is illegal (R78, R85). -/
def initOf (opt : BitVec 4) : Instr :=
  if opt.toNat = 0 then .init
  else if opt.toNat = 1 then .illegalInit1
  else if opt.toNat < 4 then .illegalInit2 (opt.setWidth 1)
  else if opt.toNat < 8 then .illegalInit4 (opt.setWidth 2)
  else .illegalInit8 (opt.setWidth 3)

/-- SEND's illegal row for each OPT other than 0 (R85). -/
def illegalSendOf (opt : BitVec 4) : Instr :=
  if opt.toNat = 1 then .illegalSend1
  else if opt.toNat < 4 then .illegalSend2 (opt.setWidth 1)
  else if opt.toNat < 8 then .illegalSend4 (opt.setWidth 2)
  else .illegalSend8 (opt.setWidth 3)

/-- RECEIVE's illegal row for each OPT other than 0 (R85). -/
def illegalReceiveOf (opt : BitVec 4) : Instr :=
  if opt.toNat = 1 then .illegalReceive1
  else if opt.toNat < 4 then .illegalReceive2 (opt.setWidth 1)
  else if opt.toNat < 8 then .illegalReceive4 (opt.setWidth 2)
  else .illegalReceive8 (opt.setWidth 3)

/-- GET's row for each option id (R79). -/
def getRow (opt : BitVec 4) (maxLen : Byte) : Instr :=
  match opt.toNat with
  | 0 => .getDeviceType maxLen
  | 1 => .getProto maxLen
  | 2 => .getChannel maxLen
  | 3 => .getAddress maxLen
  | 4 => .getMaxFrame maxLen
  | 5 => .getIid maxLen
  | 6 => .getOpt6 maxLen
  | 7 => .getOpt7 maxLen
  | 8 => .getOpt8 maxLen
  | 9 => .getOpt9 maxLen
  | 10 => .getOptA maxLen
  | 11 => .getOptB maxLen
  | 12 => .getOptC maxLen
  | 13 => .getOptD maxLen
  | 14 => .getOptE maxLen
  | _ => .getOptF maxLen

/-- SET's row for each option id (R79). -/
def setRow (opt : BitVec 4) (value : List Byte) : Instr :=
  match opt.toNat with
  | 0 => .setDeviceType value
  | 1 => .setProto value
  | 2 => .setChannel value
  | 3 => .setAddress value
  | 4 => .setMaxFrame value
  | 5 => .setIid value
  | 6 => .setOpt6 value
  | 7 => .setOpt7 value
  | 8 => .setOpt8 value
  | 9 => .setOpt9 value
  | 10 => .setOptA value
  | 11 => .setOptB value
  | 12 => .setOptC value
  | 13 => .setOptD value
  | 14 => .setOptE value
  | _ => .setOptF value

/-- The command decoder: the command byte says how many operand bytes follow (R77 to R81, R85). Every
byte is the command byte of some row, so the only rejection is of a command that is not yet whole. -/
def decodeCmd : List Byte → Except DecodeError (Instr × List Byte)
  | [] => .error .incomplete
  | c :: bs =>
    match (opcOf c).toNat with
    | 0 => .ok (.illegalOpc0 (optOf c), bs)
    | 1 => .ok (initOf (optOf c), bs)
    | 2 => if (optOf c).toNat = 0 then withOperand .send (takeFrame bs) else .ok (illegalSendOf (optOf c), bs)
    | 3 => if (optOf c).toNat = 0 then withOperand .receive (takeByte bs) else .ok (illegalReceiveOf (optOf c), bs)
    | 4 => withOperand (getRow (optOf c)) (takeByte bs)
    | 5 => withOperand (setRow (optOf c)) (takeCounted bs)
    | 6 | 7 => .ok (.illegalOpc6 (c.setWidth 5), bs)
    | _ => .ok (.illegalOpc8 (c.setWidth 7), bs)

/-- The dispatch row of a key `K = {state[2:0], L}` (R90). -/
def decodeKey (k : BitVec 4) : Instr :=
  match k.toNat with
  | 0 | 1 | 2 | 3 => .dispatchUnhandled (k.setWidth 2)
  | 4 => .dispatchRxRearm
  | 5 => .dispatchRxStart
  | 6 => .dispatchRxComplete
  | 7 => .dispatchMissedEdge
  | 8 => .dispatchTxDone
  | 9 => .dispatchTxBusy
  | 10 | 11 => .dispatchUnhandledPowerDown (k.setWidth 1)
  | _ => .dispatchInvalid (k.setWidth 2)

/-- A key written as one byte. -/
def decodeKeyByte : List Byte → Except DecodeError (Instr × List Byte)
  | [] => .error .incomplete
  | b :: bs => if b.toNat < 16 then .ok (decodeKey (b.setWidth 4), bs) else .error .notAKey

/-- A record's two fields `r` and `v` (R89). -/
def takePair : List Byte → Option ((Byte × Byte) × List Byte)
  | r :: v :: bs => some ((r, v), bs)
  | _ => none

/-- A burst record's fields `r`, `n`, `b[0..n-1]` (R89). -/
def takeBurst : List Byte → Option ((Byte × List Byte) × List Byte)
  | [] => none
  | r :: bs =>
    match takeCounted bs with
    | none => none
    | some (b, rest) => some ((r, b), rest)

/-- The bus record decoder: the header is `{kind[2:0], 00000}` (R89). -/
def decodeRecord : List Byte → Except DecodeError (Instr × List Byte)
  | [] => .error .incomplete
  | h :: bs =>
    if (h.extractLsb' 0 5).toNat ≠ 0 then .error .badHeader
    else
      match (h.extractLsb' 5 3).toNat with
      | 0 => withOperand (fun p => .recRd p.1 p.2) (takePair bs)
      | 1 => withOperand (fun p => .recWr p.1 p.2) (takePair bs)
      | 2 => withOperand (fun p => .recBrd p.1 p.2) (takeBurst bs)
      | 3 => withOperand (fun p => .recBwr p.1 p.2) (takeBurst bs)
      | 4 => withOperand .recSt (takeByte bs)
      | 5 => .ok (.recReserved5, bs)
      | _ => .ok (.recReserved6 ((h.extractLsb' 5 3).setWidth 1), bs)

/-- The decoder of each format: the instruction and the bytes after it. -/
def decode : Format → List Byte → Except DecodeError (Instr × List Byte)
  | .cmd, bs => decodeCmd bs
  | .key, bs => decodeKeyByte bs
  | .record, bs => decodeRecord bs

/-- A count byte and the bytes it counts. -/
def counted (b : List Byte) : List Byte := u8 b.length :: b

/-- The encoder: an instruction's bytes, from the same tables (R78 to R80, R89, R90, R92). -/
def encode : Instr → List Byte
  | .init => [0x10]
  | .send f => 0x20 :: f
  | .receive m => [0x30, m]
  | .getDeviceType m => [0x40, m]
  | .getProto m => [0x41, m]
  | .getChannel m => [0x42, m]
  | .getAddress m => [0x43, m]
  | .getMaxFrame m => [0x44, m]
  | .getIid m => [0x45, m]
  | .getOpt6 m => [0x46, m]
  | .getOpt7 m => [0x47, m]
  | .getOpt8 m => [0x48, m]
  | .getOpt9 m => [0x49, m]
  | .getOptA m => [0x4A, m]
  | .getOptB m => [0x4B, m]
  | .getOptC m => [0x4C, m]
  | .getOptD m => [0x4D, m]
  | .getOptE m => [0x4E, m]
  | .getOptF m => [0x4F, m]
  | .setDeviceType v => 0x50 :: counted v
  | .setProto v => 0x51 :: counted v
  | .setChannel v => 0x52 :: counted v
  | .setAddress v => 0x53 :: counted v
  | .setMaxFrame v => 0x54 :: counted v
  | .setIid v => 0x55 :: counted v
  | .setOpt6 v => 0x56 :: counted v
  | .setOpt7 v => 0x57 :: counted v
  | .setOpt8 v => 0x58 :: counted v
  | .setOpt9 v => 0x59 :: counted v
  | .setOptA v => 0x5A :: counted v
  | .setOptB v => 0x5B :: counted v
  | .setOptC v => 0x5C :: counted v
  | .setOptD v => 0x5D :: counted v
  | .setOptE v => 0x5E :: counted v
  | .setOptF v => 0x5F :: counted v
  | .illegalOpc0 o => [o.setWidth 8]
  | .illegalInit1 => [0x11]
  | .illegalInit2 l => [0x12 ||| l.setWidth 8]
  | .illegalInit4 l => [0x14 ||| l.setWidth 8]
  | .illegalInit8 l => [0x18 ||| l.setWidth 8]
  | .illegalSend1 => [0x21]
  | .illegalSend2 l => [0x22 ||| l.setWidth 8]
  | .illegalSend4 l => [0x24 ||| l.setWidth 8]
  | .illegalSend8 l => [0x28 ||| l.setWidth 8]
  | .illegalReceive1 => [0x31]
  | .illegalReceive2 l => [0x32 ||| l.setWidth 8]
  | .illegalReceive4 l => [0x34 ||| l.setWidth 8]
  | .illegalReceive8 l => [0x38 ||| l.setWidth 8]
  | .illegalOpc6 l => [0x60 ||| l.setWidth 8]
  | .illegalOpc8 l => [0x80 ||| l.setWidth 8]
  | .dispatchUnhandled k => [k.setWidth 8]
  | .dispatchRxRearm => [0x4]
  | .dispatchRxStart => [0x5]
  | .dispatchRxComplete => [0x6]
  | .dispatchMissedEdge => [0x7]
  | .dispatchTxDone => [0x8]
  | .dispatchTxBusy => [0x9]
  | .dispatchUnhandledPowerDown l => [0xA ||| l.setWidth 8]
  | .dispatchInvalid k => [0xC ||| k.setWidth 8]
  | .recRd r v => [0x00, r, v]
  | .recWr r v => [0x20, r, v]
  | .recBrd r b => 0x40 :: r :: counted b
  | .recBwr r b => 0x60 :: r :: counted b
  | .recSt c => [0x80, c]
  | .recReserved5 => [0xA0]
  | .recReserved6 k => [0xC0 ||| (k.setWidth 8 <<< 5)]

/-- The longest instruction: SEND with F[0] = 255 (R80). -/
abbrev longestInstr : Nat := 257

/-- The bytes of a number, byte 0 its least significant. -/
def bytesOf : Nat → Nat → List Byte
  | 0, _ => []
  | n + 1, w => u8 (w % 256) :: bytesOf n (w / 256)

/-- A table row's bits as bytes, zeros following up to the longest instruction. -/
def tableBytes (nbits w : Nat) : List Byte := bytesOf ((nbits + 7) / 8) w ++ List.replicate longestInstr 0

/-- The instruction a table word stands for. The three formats number the same byte values; a word of
eight bits is read as a command, and one of at most four as a dispatch key (log 11). -/
def decodeTableWord (nbits w : Nat) : Option Instr :=
  if nbits ≤ 4 then some (decodeKey (BitVec.ofNat 4 w))
  else
    match decodeCmd (tableBytes nbits w) with
    | .ok (i, _) => some i
    | .error _ => none

end Sys2Proof
end

