-- ==== Sys2Proof/Machine/State.lean ====
section
/-! DEFINITION. The machine's state as plain data (10_state.md): the Device Context, the command
sequencer, the inputs and outputs, and the schedule of the agents' moves. -/

namespace Sys2Proof.Machine

/-- The six radio states (10_state.md R34). -/
inductive RadioState where
  | unknown
  | idle
  | receiving
  | receivingBusy
  | transmitting
  | powerDown
  deriving DecidableEq, Repr

/-- The state codes of 30_encoding.md R76. -/
abbrev RadioState.code : RadioState → BitVec 3
  | .unknown => 0
  | .idle => 1
  | .receiving => 2
  | .receivingBusy => 3
  | .transmitting => 4
  | .powerDown => 5

/-- The operations of the command sequencer (R37). -/
inductive Op where
  | none
  | send
  | receive
  | get
  | set
  | init
  deriving DecidableEq, Repr

/-- SEND's steps (41_send_tx.md R113), with a place for each yield inside one: `s1check` is Y1, before
S1's check, `s1sleep` S1's sleep, `s3mask` Y3, and `t5done` Y4, after T5's commit. A step label stands
BEFORE its step: the step itself has not run yet. -/
inductive SendStep where
  | s1
  | s1check
  | s1sleep
  | s2
  | s3
  | s3mask
  | s4
  | s5
  | t1
  | t2
  | t3
  | t4
  | t5
  | t5done
  | t6
  deriving DecidableEq, Repr

/-- INIT's steps (44_adapter.md R166): `i7done` is the yield after I7's unmask. -/
inductive InitStep where
  | i1
  | i2
  | i3
  | i4
  | i5
  | i6
  | i7
  | i7done
  deriving DecidableEq, Repr

/-- RECEIVE's steps (R167). -/
inductive ReceiveStep where
  | v1
  | v2
  | v3
  deriving DecidableEq, Repr

/-- SET's steps (R177 to R179): E1 with the latched OPT; `c2write` is C2's yield, between storing the
channel and writing the register. -/
inductive SetStep where
  | e1 (opt : BitVec 4)
  | c1
  | c2
  | c2write
  | a1
  | a2
  deriving DecidableEq, Repr

/-- The sequencer's position: `op` with its `step` (R37, R38), and GET's and SET's latched OPT. One
value, so that no operation stands at another's step. -/
inductive Pos where
  | none
  | init (step : InitStep)
  | send (step : SendStep)
  | receive (step : ReceiveStep)
  | get (opt : BitVec 4)
  | set (step : SetStep)
  deriving DecidableEq, Repr

/-- `op` of a position. -/
abbrev Pos.op : Pos → Op
  | .none => .none
  | .init _ => .init
  | .send _ => .send
  | .receive _ => .receive
  | .get _ => .get
  | .set _ => .set

/-- A local space of bytes by index (20_memory.md R46), in canonical form: see `Memory.wf`. -/
abbrev Memory := List Host.Cell

/-- One bus transaction (R53; codes in 30_encoding.md R89). -/
inductive BusRecord where
  | rd (r v : Byte)
  | wr (r v : Byte)
  | brd (r : Byte) (b : List Byte)
  | bwr (r : Byte) (b : List Byte)
  | st (c : Byte)
  deriving DecidableEq, Repr

/-- One scripted answer of XCVR: the value it gives to a coming read of a register (R42; 30_encoding.md
R94). -/
structure Answer where
  reg : Byte
  value : Byte
  deriving DecidableEq, Repr

/-- The kinds of a Log event (42_fsm_isr.md R147). -/
inductive LogKind where
  | missedEdge
  | unhandled
  | rxRejected
  | rxAbortedStatus
  | rxErrState
  deriving DecidableEq, Repr

/-- The metadata RECEIVE puts out beside its result (44_adapter.md R167 step V3). -/
structure RxMeta where
  rssi : Byte
  lqi : BitVec 7
  deriving DecidableEq, Repr

/-- The output events (10_state.md R43). `Done` carries RECEIVE's metadata beside the result. -/
inductive Event where
  | frameAvailable
  | log (kind : LogKind)
  | done (result : Result) (info : Option RxMeta)
  deriving DecidableEq, Repr

/-- What UPPER copied inside a delivering dispatch (44_adapter.md R184). -/
structure UpperCopy where
  len : Byte
  bytes : List Byte
  rssi : Byte
  lqi : BitVec 7
  deriving DecidableEq, Repr

/-- One move of the schedule: which agent acts next, and how (10_state.md R18; log 1, 2). -/
inductive Move where
  /-- TASK takes one step of its operation, or presents its next command. -/
  | task
  /-- TASK runs its operation, or its next command, to its end undisturbed. -/
  | run
  /-- XCVR drives evt_pin to a level, with EDGE's step (R133). -/
  | pin (level : Bool)
  /-- ISR takes the pending dispatch; `pull` is UPPER's draw of R184. -/
  | dispatch (pull : Bool)
  /-- TASK stops, for as long as this is the last move: the owning task may stop at any time
  (70_reset_and_hazards.md R226; log 19). -/
  | stop
  /-- TASK presents bytes at the command port: a command arrives (R165, R198). -/
  | present (bytes : List Byte)
  /-- XCVR settles its answers to coming reads (R42; 30_encoding.md R94). -/
  | answer (script : List Answer)
  /-- Reset (70_reset_and_hazards.md R211), with the unspecified contents it leaves in the two buffers. -/
  | reset (tx rx : List Byte)
  deriving DecidableEq, Repr

/-- Why the machine stops with a fault: the spec's model faults (60_exceptions.md R194, 00_scope.md R11). -/
inductive Fault where
  /-- `state` holds a reserved code 6 or 7: raised by every step, every command and every dispatch row in
  such a state, and by DISPATCH_INVALID (10_state.md R35, 42_fsm_isr.md R145; log 28). Safe: the spec asks
  for exactly this fault. -/
  | invalidState
  /-- A MemWrite past the end of TXBUF: raised by SEND's step S5, in states no run reaches (20_memory.md
  R47). Safe: the machine stops where the spec says it never goes. -/
  | bufferRange
  deriving DecidableEq, Repr

/-- Why the machine refuses. -/
inductive Refusal where
  /-- The instruction has no meaning yet: raised by exec's arms only. Safe. -/
  | notModelled (mnemonic : String)
  /-- A command arrives while op is not NONE: raised by the move `present` and by every command (44_adapter.md
  R165, 60_exceptions.md R194; log 26). Safe: the spec's model refuses that input. -/
  | portBusy
  /-- A dispatch row is run where that dispatch cannot be taken: masked, not pending, or with another
  key: raised by every DISPATCH row but DISPATCH_INVALID (42_fsm_isr.md R136, R137). Safe. -/
  | dispatchNotTaken
  /-- A reserved bus record kind: raised by the REC_RESERVED rows (30_encoding.md R89; I5). Safe: the
  spec refuses a trace that contains one. -/
  | reservedRecord
  deriving DecidableEq, Repr

/-- The machine's state. -/
structure State where
  /-- `state` (R34): the 3-bit radio state code. -/
  state : BitVec 3
  /-- `node_addr` (R20). -/
  nodeAddr : Byte
  /-- `channel` (R22). -/
  channel : Byte
  /-- `irq_en` (R23). -/
  irqEn : Bool
  /-- `irq_pend` (R24). -/
  irqPend : Bool
  /-- `pin_prev` (R25). -/
  pinPrev : Bool
  /-- `tx_fault` (R26). -/
  txFault : Bool
  /-- `tx_buf`, the space TXBUF (R27). -/
  txBuf : Memory
  /-- `tx_len` (R28). -/
  txLen : Byte
  /-- `rx_buf`, the space RXBUF (R29). -/
  rxBuf : Memory
  /-- `rx_len` (R30). -/
  rxLen : Byte
  /-- `rx_rssi` (R31): the raw byte; `RSSI_VAL` is its signed reading. -/
  rxRssi : Byte
  /-- `rx_lqi` (R32). -/
  rxLqi : BitVec 7
  /-- `stat_rx` (R33). -/
  statRx : Counter
  /-- `stat_crc_fail` (R33). -/
  statCrcFail : Counter
  /-- `stat_rx_while_tx` (R33). -/
  statRxWhileTx : Counter
  /-- `stat_tx` (R33). -/
  statTx : Counter
  /-- `op` and `step` (R37). -/
  pos : Pos
  /-- `poll_k` (R37, R39). -/
  pollK : Nat
  /-- `retry` (R37, R39). -/
  retry : Bool
  /-- The latched operand bytes, the space HOSTIN (R37, 20_memory.md R46). -/
  hostIn : List Byte
  /-- SEND's local `s` (41_send_tx.md R116). -/
  stamp : Byte
  /-- RECEIVE's local `n` (44_adapter.md R167). -/
  copyN : Byte
  /-- RECEIVE's local `rssi`. -/
  copyRssi : Byte
  /-- RECEIVE's local `lqi`. -/
  copyLqi : BitVec 7
  /-- RECEIVE's loop index `i`. -/
  copyIdx : Nat
  /-- `evt_pin` (R40). -/
  evtPin : Bool
  /-- The command port: bytes TASK has given and the block has not yet accepted. TASK gives the commands in
  them one at a time, each after the last one's Done (R41, R165; log 26). -/
  port : List Byte
  /-- XCVR's coming answers: a read of a register takes the first one of that register, and where there is
  none its answer is a free value (R42; log 3). -/
  answers : List Answer
  /-- How many free answers have been drawn: the model's own field (log 3). -/
  draws : Nat
  /-- Whether UPPER pulls inside the next delivering dispatch (44_adapter.md R184). -/
  upperPull : Bool
  /-- The moves to come, which the agents may add to before any step; with none, TASK acts undisturbed, and
  ISR where TASK waits (log 1, 2, 19). -/
  sched : List Move
  /-- The caller's output buffer, the space HOSTOUT (20_memory.md R46). -/
  hostOut : Memory
  /-- The bus trace, oldest first (R43, R53). -/
  busTrace : List BusRecord
  /-- The event trace, oldest first (R43). -/
  events : List Event
  /-- UPPER's copies, oldest first (R184). -/
  upperCopies : List UpperCopy
  /-- The parameters of the instance (00_scope.md R7). -/
  params : Params
  deriving DecidableEq, Repr

/-- The machine right after reset, for given parameters and a given level of the event pin (70_reset_and_hazards.md
R209, R212). What R209 leaves unspecified is zero here (log 5, 6), and no input has come yet. -/
def State.initial (p : Params) (pin : Bool) : State where
  state := RadioState.unknown.code
  nodeAddr := p.addrDefault
  channel := p.chanDefault
  irqEn := false
  irqPend := false
  pinPrev := pin
  txFault := false
  txBuf := []
  txLen := 0
  rxBuf := []
  rxLen := 0
  rxRssi := 0
  rxLqi := 0
  statRx := 0
  statCrcFail := 0
  statRxWhileTx := 0
  statTx := 0
  pos := .none
  pollK := 0
  retry := false
  hostIn := []
  stamp := 0
  copyN := 0
  copyRssi := 0
  copyLqi := 0
  copyIdx := 0
  evtPin := pin
  port := []
  answers := []
  draws := 0
  upperPull := false
  sched := []
  hostOut := []
  busTrace := []
  events := []
  upperCopies := []
  params := p

/-- The machine right after reset: the parameters are not known (log 4), the event pin is low (log 7). -/
def State.reset : State := State.initial Config.resetParams false

end Sys2Proof.Machine
end

