-- ==== Sys2Proof/Machine/Ops.lean ====
section
/-! DEFINITION. The named operations over memory, the bus, the traces and the sequencer, and the taking
of a dispatch, this block's "trap entry" (20_memory.md, 60_exceptions.md R199). -/

namespace Sys2Proof.Machine

/-- What a step of the machine answers. -/
abbrev Outcome := Host.Outcome State Fault Refusal

/-! ### Local spaces -/

/-- What an index that nothing has written reads as (log 8). -/
abbrev Memory.unlisted : Byte := 0

/-- The byte at an index. -/
def Memory.read : Memory → Nat → Byte
  | [], _ => Memory.unlisted
  | (b, w) :: m, a => if b = a then w else Memory.read m a

/-- An entry, or none where it would say what an unlisted index reads as anyway. -/
def Memory.entry (a : Nat) (v : Byte) : Memory := if v = Memory.unlisted then [] else [(a, v)]

/-- Write one byte. -/
def Memory.write : Memory → Nat → Byte → Memory
  | [], a, v => Memory.entry a v
  | (b, w) :: m, a, v =>
    if b < a then (b, w) :: Memory.write m a v
    else if b = a then Memory.entry a v ++ m
    else Memory.entry a v ++ (b, w) :: m

/-- `MemRead(S, a, n)` (00_scope.md R11). -/
def Memory.readBytes (m : Memory) (a : Nat) : Nat → List Byte
  | 0 => []
  | n + 1 => m.read a :: Memory.readBytes m (a + 1) n

/-- `MemWrite(S, a, n, v)` with n the length of v (R11). -/
def Memory.writeBytes : Memory → Nat → List Byte → Memory
  | m, _, [] => m
  | m, a, b :: bs => Memory.writeBytes (m.write a b) (a + 1) bs

/-- The canonical form: indices strictly rising, no entry equal to what an unlisted index reads as. -/
abbrev Memory.wf (m : Memory) : Prop :=
  m.Pairwise (fun x y => x.1 < y.1) ∧ ∀ c ∈ m, c.2 ≠ Memory.unlisted

/-- Every listed index lies below a bound. -/
abbrev Memory.within (n : Nat) (m : Memory) : Prop := ∀ c ∈ m, c.1 < n

/-- A buffer of 255 bytes holding the given bytes, the rest as unlisted. -/
def Memory.ofBytes (b : List Byte) : Memory := Memory.writeBytes [] 0 (b.take maxFrame)

/-! ### Bus primitives: each one indivisible, each appending one record (R53, R57) -/

/-- Append a record to the bus trace (R53). -/
def State.record (s : State) (r : BusRecord) : State := { s with busTrace := s.busTrace ++ [r] }

/-- The first scripted answer of register r, and the script without it. -/
def takeAnswer (r : Byte) : List Answer → Option (Byte × List Answer)
  | [] => none
  | a :: as =>
    if a.reg = r then some (a.value, as)
    else
      match takeAnswer r as with
      | none => none
      | some (v, rest) => some (v, a :: rest)

/-- XCVR's answer to a read of register r: the next scripted one of r, or a free value (10_state.md R42,
30_encoding.md R94; log 3). -/
def nextAnswer (r : Byte) (s : State) : Byte × State :=
  match takeAnswer r s.answers with
  | none => (Config.freeByte s.draws, { s with draws := s.draws + 1 })
  | some (v, rest) => (v, { s with answers := rest })

/-- XCVR's next n answers from register r. -/
def nextAnswers (r : Byte) : Nat → State → List Byte × State
  | 0, s => ([], s)
  | n + 1, s =>
    ((nextAnswer r s).1 :: (nextAnswers r n (nextAnswer r s).2).1, (nextAnswers r n (nextAnswer r s).2).2)

/-- `BusRead(r)`. -/
def busRead (r : Byte) (s : State) : Byte × State :=
  ((nextAnswer r s).1, (nextAnswer r s).2.record (.rd r (nextAnswer r s).1))

/-- `BusWrite(r, v)`. -/
def busWrite (r v : Byte) (s : State) : State := s.record (.wr r v)

/-- `BurstRead(r, n)`: n bytes, the first the transceiver gave at index 0 (R52). -/
def burstRead (r : Byte) (n : Nat) (s : State) : List Byte × State :=
  ((nextAnswers r n s).1, (nextAnswers r n s).2.record (.brd r (nextAnswers r n s).1))

/-- `BurstWrite(r, b)`. -/
def burstWrite (r : Byte) (b : List Byte) (s : State) : State := s.record (.bwr r b)

/-- `Strobe(c)`. -/
def strobe (c : Byte) (s : State) : State := s.record (.st c)

/-! ### Output events -/

/-- `emit E` (00_scope.md R11). -/
def State.emit (s : State) (e : Event) : State := { s with events := s.events ++ [e] }

/-! ### The state register (R34, R35) -/

/-- The model fault of R35 and R194 (a): wherever a step, a command or a dispatch finds `state` holding 6 or
7, the machine stops (93_implementation_defined.md I1; log 28). SEND's poll is such a place, so it never
counts a reserved code as one of R114's ineligible states. -/
def checkState (s : State) (o : Outcome) : Outcome :=
  if s.state.toNat < numStates then o else .fault .invalidState

/-- The state register write (R11): `ctx.state <- S`. -/
def setRadio (r : RadioState) (s : State) : State := { s with state := r.code }

/-! ### The sequencer (R37, R38) -/

/-- Stand before the step labelled p. With no move pending the step runs now; otherwise the sequencer
stays at p, and the next move decides what happens there (20_memory.md R60; log 2). -/
def goto (p : Pos) (s : State) (body : State → Outcome) : Outcome :=
  if s.sched.isEmpty then body { s with pos := p } else .next { s with pos := p }

/-- `return r` (R11): op becomes NONE and `Done(r)` is emitted (R38). -/
def finish (r : Result) (s : State) : Outcome := .next ({ s with pos := .none }.emit (.done r none))

/-- `return r` with RECEIVE's metadata beside the result (44_adapter.md R167 step V3). -/
def finishWith (r : Result) (info : RxMeta) (s : State) : Outcome :=
  .next ({ s with pos := .none }.emit (.done r (some info)))

/-- Command acceptance (R165): only while op is NONE; the operand bytes are latched as HOSTIN and the
sequencer stands before the operation's first step. -/
def accept (p : Pos) (operands : List Byte) (s : State) (body : State → Outcome) : Outcome :=
  checkState s (if s.pos = .none then goto p { s with hostIn := operands } body else .refused .portBusy)

/-- A command that ends at the port, with no operand and no step (R182). -/
def acceptDone (r : Result) (s : State) : Outcome :=
  checkState s (if s.pos = .none then finish r s else .refused .portBusy)

/-! ### Taking a dispatch and returning from it (60_exceptions.md R199, R200) -/

/-- The key `K = {state[2:0], L}` (30_encoding.md R90). -/
def dispatchKey (s : State) : BitVec 4 := s.state ++ BitVec.ofBool s.evtPin

/-- A dispatch may run: enabled and pending (42_fsm_isr.md R136). -/
def dispatchReady (s : State) : Bool := s.irqEn && s.irqPend

/-- Dispatch entry (R137): the pending latch is cleared; the level has been sampled into the key. No
architectural state is saved, no mode changes, and `irq_en` stays as it is (R199). -/
def dispatchEntry (s : State) : State := { s with irqPend := false }

/-- Dispatch return (R200): the task goes on at its next step; nothing is restored, as nothing was saved. -/
def dispatchReturn (s : State) : State := s

/-- Take the dispatch with key k and run its row; it is one atomic step (R137). Refused where that
dispatch cannot be taken (log 9). -/
def takeDispatch (k : BitVec 4) (row : State → State) (s : State) : Outcome :=
  checkState s
    (if dispatchReady s ∧ dispatchKey s = k then .next (dispatchReturn (row (dispatchEntry s)))
    else .refused .dispatchNotTaken)

/-- An interleaving point of R60: op = NONE, or a label at which the operation's rule writes `yield`. -/
def Pos.isYield : Pos → Bool
  | .none => true
  | .init .i7done => true
  | .init _ => false
  | .send .s1check | .send .s1sleep | .send .s2 | .send .s3mask | .send .t5done => true
  | .send _ => false
  | .receive .v1 | .receive .v2 => true
  | .receive .v3 => false
  | .get _ => true
  | .set (.e1 _) | .set .c2write => true
  | .set _ => false

/-! ### Reset (70_reset_and_hazards.md R209, R211) -/

/-- Reset at any step: the operation in progress is dropped with no `Done`, and every field takes its
value from R209. The two buffers hold whatever the reset move says, and the sequencer's unspecified
fields stay (log 5, 6). What belongs to TASK, XCVR, UPPER and the schedule is not the block's and stays (log 20). -/
def resetBlock (tx rx : List Byte) (s : State) : State :=
  { State.initial s.params s.evtPin with
    txBuf := Memory.ofBytes tx
    rxBuf := Memory.ofBytes rx
    pollK := s.pollK
    retry := s.retry
    hostIn := s.hostIn
    stamp := s.stamp
    copyN := s.copyN
    copyRssi := s.copyRssi
    copyLqi := s.copyLqi
    copyIdx := s.copyIdx
    port := s.port
    answers := s.answers
    draws := s.draws
    upperPull := s.upperPull
    sched := s.sched
    hostOut := s.hostOut
    upperCopies := s.upperCopies }

end Sys2Proof.Machine
end

