-- ==== Sys2Proof/Machine/Flags.lean ====
section
/-! DEFINITION. The block's status bits `irq_en`, `irq_pend` and `tx_fault` (10_state.md R23, R24, R26,
R44), the edge detector that sets the pending latch (42_fsm_isr.md R133 to R135), and the result codes
(30_encoding.md R84). The block has no arithmetic condition codes (R44). -/

namespace Sys2Proof.Machine

/-- `irq_disable()` (00_scope.md R11). -/
def irqDisable (s : State) : State := { s with irqEn := false }

/-- `irq_enable()` (R11). -/
def irqEnable (s : State) : State := { s with irqEn := true }

/-- INIT step I1's `irq_pend <- 0` (44_adapter.md R166). -/
def clearPending (s : State) : State := { s with irqPend := false }

/-- SEND step T6 (41_send_tx.md R124). -/
def setTxFault (s : State) : State := { s with txFault := true }

/-- INIT step I2 (R166). -/
def clearTxFault (s : State) : State := { s with txFault := false }

/-- The edge a change to a level makes (R133). -/
def edgeTo (level : Bool) : Edge := if level then .rising else .falling

/-- Whether a sense takes an edge (R133: `edge in EDGE_SENSE`). -/
def EdgeSense.takes : EdgeSense → Edge → Bool
  | .both, _ => true
  | .rising, .rising => true
  | .falling, .falling => true
  | .rising, .falling => false
  | .falling, .rising => false

/-- Whether EDGE latches this change: a change there is, of a sensed edge, while unmasked or with
LATCH_WHILE_MASKED (R133, R134). -/
def edgeLatches (level : Bool) (s : State) : Bool :=
  (level != s.pinPrev) && EdgeSense.takes edgeSense (edgeTo level) && (s.irqEn || s.params.latchWhileMasked)

/-- XCVR drives evt_pin, and EDGE runs in the same step (R133). One latch: edges coalesce (R135). -/
def pinChange (level : Bool) (s : State) : State :=
  { s with evtPin := level, irqPend := s.irqPend || edgeLatches level s, pinPrev := level }

/-- The result codes of R84. -/
abbrev errTimeout : Result := BitVec.ofInt 16 (-1)
abbrev errSize : Result := BitVec.ofInt 16 (-2)
abbrev errTxFail : Result := BitVec.ofInt 16 (-3)
abbrev errNoSpace : Result := BitVec.ofInt 16 (-4)
abbrev errInval : Result := BitVec.ofInt 16 (-5)
abbrev errNotSup : Result := BitVec.ofInt 16 (-6)
abbrev errIllegal : Result := BitVec.ofInt 16 (-7)

/-- A byte count as a result (R84). -/
abbrev countResult (n : Nat) : Result := BitVec.ofNat 16 n

end Sys2Proof.Machine
end

