-- ==== Sys2Proof/Machine/Operands.lean ====
section
/-! DEFINITION. The operand forms of the command port (30_encoding.md R80 to R83): HOSTIN's bytes, the
option ids, GET's option values and SET's value checks. -/

namespace Sys2Proof.Machine

/-- RECEIVE's and GET's `max_len`, an unsigned capacity in bytes (R81). -/
def State.maxLen (s : State) : Nat := (s.hostIn.headD 0).toNat

/-- A 16-bit option value, least significant byte first (20_memory.md R54). -/
def le16 (v : BitVec 16) : List Byte := [v.extractLsb' 0 8, v.extractLsb' 8 8]

/-- The interface identifier of a node address (R82, 44_adapter.md R175; log 14). -/
def iidOf (a : Byte) : List Byte := [0x00, 0x00, 0x00, 0xFF, 0xFE, 0x00, 0x00, a]

/-- `OPTION_VALUE(OPT)` (R170 to R175); none for a reserved option (R176). -/
def optionValue (opt : BitVec 4) (s : State) : Option (List Byte) :=
  match opt.toNat with
  | 0 => some (le16 s.params.deviceTypeId)
  | 1 => some (le16 s.params.protoTag)
  | 2 => some [s.channel]
  | 3 => some [s.nodeAddr]
  | 4 => some (le16 (BitVec.ofNat 16 maxFrame))
  | 5 => some (iidOf s.nodeAddr)
  | _ => none

/-- The option ids of R79 that SET may write. -/
abbrev optChannel : BitVec 4 := 2
abbrev optAddress : BitVec 4 := 3

/-- SET's `v`: the first value byte (R177). -/
def State.setValue (s : State) : Byte := s.hostIn.headD 0

/-- SET CHANNEL's range check: CHAN_MIN <= v <= CHAN_MAX (R178). -/
def channelInRange (v : Byte) (s : State) : Bool :=
  decide (s.params.chanMin ≤ v) && decide (v ≤ s.params.chanMax)

/-- `MemWrite(HOSTOUT, a, n, v)`. -/
def writeHostOut (a : Nat) (b : List Byte) (s : State) : State :=
  { s with hostOut := s.hostOut.writeBytes a b }

end Sys2Proof.Machine
end

