-- ==== Sys2Proof/Machine/GetSet.lean ====
section
/-! DEFINITION. GET and SET (44_adapter.md R169 to R181). -/

namespace Sys2Proof.Machine

/-! ### GET -/

/-- Step G1 after its yield (R169): the reserved check, the space check, the copy. -/
def getG1 (opt : BitVec 4) (s : State) : Outcome :=
  match optionValue opt s with
  | none => finish errNotSup s
  | some bytes =>
    if s.maxLen < bytes.length then finish errNoSpace s
    else finish (countResult bytes.length) (writeHostOut 0 bytes s)

/-- GET of an option id. -/
def getCommand (opt : BitVec 4) (maxLen : Byte) (s : State) : Outcome :=
  accept (.get opt) [maxLen] s (getG1 opt)

/-- GET DEVICE_TYPE, 0x40 (R169, R170). -/
def execGetDeviceType (maxLen : Byte) (s : State) : Outcome := getCommand 0 maxLen s

/-- GET PROTO, 0x41 (R169, R171). -/
def execGetProto (maxLen : Byte) (s : State) : Outcome := getCommand 1 maxLen s

/-- GET CHANNEL, 0x42 (R169, R172). -/
def execGetChannel (maxLen : Byte) (s : State) : Outcome := getCommand 2 maxLen s

/-- GET ADDRESS, 0x43 (R169, R173). -/
def execGetAddress (maxLen : Byte) (s : State) : Outcome := getCommand 3 maxLen s

/-- GET MAX_FRAME, 0x44 (R169, R174). -/
def execGetMaxFrame (maxLen : Byte) (s : State) : Outcome := getCommand 4 maxLen s

/-- GET IID, 0x45 (R169, R175). -/
def execGetIid (maxLen : Byte) (s : State) : Outcome := getCommand 5 maxLen s

/-- GET of the reserved option 6, 0x46 (R176). -/
def execGetOpt6 (maxLen : Byte) (s : State) : Outcome := getCommand 6 maxLen s

/-- GET of the reserved option 7, 0x47 (R176). -/
def execGetOpt7 (maxLen : Byte) (s : State) : Outcome := getCommand 7 maxLen s

/-- GET of the reserved option 8, 0x48 (R176). -/
def execGetOpt8 (maxLen : Byte) (s : State) : Outcome := getCommand 8 maxLen s

/-- GET of the reserved option 9, 0x49 (R176). -/
def execGetOpt9 (maxLen : Byte) (s : State) : Outcome := getCommand 9 maxLen s

/-- GET of the reserved option A, 0x4A (R176). -/
def execGetOptA (maxLen : Byte) (s : State) : Outcome := getCommand 10 maxLen s

/-- GET of the reserved option B, 0x4B (R176). -/
def execGetOptB (maxLen : Byte) (s : State) : Outcome := getCommand 11 maxLen s

/-- GET of the reserved option C, 0x4C (R176). -/
def execGetOptC (maxLen : Byte) (s : State) : Outcome := getCommand 12 maxLen s

/-- GET of the reserved option D, 0x4D (R176). -/
def execGetOptD (maxLen : Byte) (s : State) : Outcome := getCommand 13 maxLen s

/-- GET of the reserved option E, 0x4E (R176). -/
def execGetOptE (maxLen : Byte) (s : State) : Outcome := getCommand 14 maxLen s

/-- GET of the reserved option F, 0x4F (R176). -/
def execGetOptF (maxLen : Byte) (s : State) : Outcome := getCommand 15 maxLen s

/-! ### SET -/

/-- C2 after its yield (R178): the register write. -/
def setC2write (s : State) : Outcome := finish 0 (busWrite s.params.regChannel s.setValue s)

/-- C2 up to its yield (R178). -/
def setC2 (s : State) : Outcome := goto (.set .c2write) { s with channel := s.setValue } setC2write

/-- C1 (R178): the range check. -/
def setC1 (s : State) : Outcome :=
  if channelInRange s.setValue s then goto (.set .c2) s setC2 else finish errInval s

/-- A2 (R179). -/
def setA2 (s : State) : Outcome := finish 0 { s with nodeAddr := s.setValue }

/-- A1 (R179): 0 is reserved as broadcast. -/
def setA1 (s : State) : Outcome :=
  if s.setValue = broadcast then finish errInval s else goto (.set .a2) s setA2

/-- Step E1 after its yield (R177): reserved and read-only options (R180, R181), then the zero length;
`V[1..]` is ignored. -/
def setE1 (opt : BitVec 4) (s : State) : Outcome :=
  if opt = optChannel ∨ opt = optAddress then
    if s.hostIn = [] then finish errInval s
    else if opt = optChannel then goto (.set .c1) s setC1
    else goto (.set .a1) s setA1
  else finish errNotSup s

/-- The rest of SET from a label. -/
def setFrom : SetStep → State → Outcome
  | .e1 opt, s => setE1 opt s
  | .c1, s => setC1 s
  | .c2, s => setC2 s
  | .c2write, s => setC2write s
  | .a1, s => setA1 s
  | .a2, s => setA2 s

/-- SET of an option id. -/
def setCommand (opt : BitVec 4) (value : List Byte) (s : State) : Outcome :=
  accept (.set (.e1 opt)) value s (setE1 opt)

/-- SET DEVICE_TYPE, 0x50: read-only (R180). -/
def execSetDeviceType (value : List Byte) (s : State) : Outcome := setCommand 0 value s

/-- SET PROTO, 0x51: read-only (R180). -/
def execSetProto (value : List Byte) (s : State) : Outcome := setCommand 1 value s

/-- SET CHANNEL, 0x52 (R178). -/
def execSetChannel (value : List Byte) (s : State) : Outcome := setCommand 2 value s

/-- SET ADDRESS, 0x53 (R179). -/
def execSetAddress (value : List Byte) (s : State) : Outcome := setCommand 3 value s

/-- SET MAX_FRAME, 0x54: read-only (R180). -/
def execSetMaxFrame (value : List Byte) (s : State) : Outcome := setCommand 4 value s

/-- SET IID, 0x55: read-only (R180). -/
def execSetIid (value : List Byte) (s : State) : Outcome := setCommand 5 value s

/-- SET of the reserved option 6, 0x56 (R181). -/
def execSetOpt6 (value : List Byte) (s : State) : Outcome := setCommand 6 value s

/-- SET of the reserved option 7, 0x57 (R181). -/
def execSetOpt7 (value : List Byte) (s : State) : Outcome := setCommand 7 value s

/-- SET of the reserved option 8, 0x58 (R181). -/
def execSetOpt8 (value : List Byte) (s : State) : Outcome := setCommand 8 value s

/-- SET of the reserved option 9, 0x59 (R181). -/
def execSetOpt9 (value : List Byte) (s : State) : Outcome := setCommand 9 value s

/-- SET of the reserved option A, 0x5A (R181). -/
def execSetOptA (value : List Byte) (s : State) : Outcome := setCommand 10 value s

/-- SET of the reserved option B, 0x5B (R181). -/
def execSetOptB (value : List Byte) (s : State) : Outcome := setCommand 11 value s

/-- SET of the reserved option C, 0x5C (R181). -/
def execSetOptC (value : List Byte) (s : State) : Outcome := setCommand 12 value s

/-- SET of the reserved option D, 0x5D (R181). -/
def execSetOptD (value : List Byte) (s : State) : Outcome := setCommand 13 value s

/-- SET of the reserved option E, 0x5E (R181). -/
def execSetOptE (value : List Byte) (s : State) : Outcome := setCommand 14 value s

/-- SET of the reserved option F, 0x5F (R181). -/
def execSetOptF (value : List Byte) (s : State) : Outcome := setCommand 15 value s

end Sys2Proof.Machine
end

