-- ==== Sys2Proof/Machine/Illegal.lean ====
section
/-! DEFINITION. Illegal command bytes (44_adapter.md R182, 30_encoding.md R85): `Done(ERR_ILLEGAL)`, no
operand byte read, no other effect. One row of the table each. -/

namespace Sys2Proof.Machine

/-- OPC 0. -/
def execIllegalOpc0 (_low : BitVec 4) (s : State) : Outcome := acceptDone errIllegal s

/-- INIT with OPT 1. -/
def execIllegalInit1 (s : State) : Outcome := acceptDone errIllegal s

/-- INIT with OPT 2 or 3. -/
def execIllegalInit2 (_low : BitVec 1) (s : State) : Outcome := acceptDone errIllegal s

/-- INIT with OPT 4 to 7. -/
def execIllegalInit4 (_low : BitVec 2) (s : State) : Outcome := acceptDone errIllegal s

/-- INIT with OPT 8 to F. -/
def execIllegalInit8 (_low : BitVec 3) (s : State) : Outcome := acceptDone errIllegal s

/-- SEND with OPT 1. -/
def execIllegalSend1 (s : State) : Outcome := acceptDone errIllegal s

/-- SEND with OPT 2 or 3. -/
def execIllegalSend2 (_low : BitVec 1) (s : State) : Outcome := acceptDone errIllegal s

/-- SEND with OPT 4 to 7. -/
def execIllegalSend4 (_low : BitVec 2) (s : State) : Outcome := acceptDone errIllegal s

/-- SEND with OPT 8 to F. -/
def execIllegalSend8 (_low : BitVec 3) (s : State) : Outcome := acceptDone errIllegal s

/-- RECEIVE with OPT 1. -/
def execIllegalReceive1 (s : State) : Outcome := acceptDone errIllegal s

/-- RECEIVE with OPT 2 or 3. -/
def execIllegalReceive2 (_low : BitVec 1) (s : State) : Outcome := acceptDone errIllegal s

/-- RECEIVE with OPT 4 to 7. -/
def execIllegalReceive4 (_low : BitVec 2) (s : State) : Outcome := acceptDone errIllegal s

/-- RECEIVE with OPT 8 to F. -/
def execIllegalReceive8 (_low : BitVec 3) (s : State) : Outcome := acceptDone errIllegal s

/-- OPC 6 or 7. -/
def execIllegalOpc6 (_low : BitVec 5) (s : State) : Outcome := acceptDone errIllegal s

/-- OPC 8 to F. -/
def execIllegalOpc8 (_low : BitVec 7) (s : State) : Outcome := acceptDone errIllegal s

end Sys2Proof.Machine
end

