-- ==== Sys2Proof/Machine/Init.lean ====
section
/-! DEFINITION. INIT (44_adapter.md R166), one definition per step. -/

namespace Sys2Proof.Machine

/-- The result, after I7's yield. -/
def initI7done (s : State) : Outcome := finish 0 s

/-- I7: unmask. -/
def initI7 (s : State) : Outcome := goto (.init .i7done) (irqEnable s) initI7done

/-- I6's effect: receive-arm and Receiving, where INIT_ARMS_RX says so. -/
def armReceive (s : State) : State :=
  { s with
    state := if s.params.initArmsRx then RadioState.receiving.code else s.state
    busTrace := s.busTrace ++ (if s.params.initArmsRx then [.st s.params.strobeRx] else []) }

/-- I6. -/
def initI6 (s : State) : Outcome := goto (.init .i7) (armReceive s) initI7

/-- I5. -/
def initI5 (s : State) : Outcome := goto (.init .i6) (setRadio .idle s) initI6

/-- I4: the stored channel reaches the transceiver. -/
def initI4 (s : State) : Outcome := goto (.init .i5) (busWrite s.params.regChannel s.channel s) initI5

/-- I3. -/
def initI3 (s : State) : Outcome := goto (.init .i4) (strobe s.params.strobeIdle s) initI4

/-- I2. -/
def initI2 (s : State) : Outcome := goto (.init .i3) (clearTxFault s) initI3

/-- I1. -/
def initI1 (s : State) : Outcome := goto (.init .i2) (clearPending (irqDisable s)) initI2

/-- The rest of INIT from a label. -/
def initFrom : InitStep → State → Outcome
  | .i1, s => initI1 s
  | .i2, s => initI2 s
  | .i3, s => initI3 s
  | .i4, s => initI4 s
  | .i5, s => initI5 s
  | .i6, s => initI6 s
  | .i7, s => initI7 s
  | .i7done, s => initI7done s

/-- INIT, command byte 0x10. -/
def execInit (s : State) : Outcome := accept (.init .i1) [] s initI1

end Sys2Proof.Machine
end

