-- ==== Sys2Proof/Machine/Framer.lean ====
section
/-! DEFINITION. The framer (40_framer.md): combinational functions over byte strings. -/

namespace Sys2Proof.Machine

/-- A frame's fields (30_encoding.md R67). -/
structure Frame where
  address : Byte
  phySrc : Byte
  flags : Byte
  data : List Byte
  deriving DecidableEq, Repr

/-- The verdicts of FRAME_DEC (R102). -/
inductive Verdict where
  | empty
  | oversize
  | shortHeader (l : Nat)
  | truncated (l m : Nat)
  | trailing (f : Frame) (extra : List Byte)
  | ok (f : Frame)
  deriving DecidableEq, Repr

/-- `FRAME_ENC(dst, src, flags, data)` (R100): none where no frame exists. -/
def frameEnc (dst src flags : Byte) (data : List Byte) : Option (List Byte) :=
  if maxData < data.length then none else some (u8 (hdrLen + data.length) :: dst :: src :: flags :: data)

/-- `FRAME_SIZE(F)` = zext(F[0]) + 1, with no 8-bit wrap (R101). -/
def frameSize (f : List Byte) : Nat := (f.headD 0).toNat + 1

/-- `FRAME_DEC(b)` (R102), the verdicts in the rule's order. -/
def frameDec (b : List Byte) : Verdict :=
  match b with
  | [] => .empty
  | l :: rest =>
    if l.toNat = 255 then .oversize
    else if l.toNat < hdrLen then .shortHeader l.toNat
    else if b.length < l.toNat + 1 then .truncated l.toNat b.length
    else
      let fields : Frame :=
        { address := rest.headD 0
          phySrc := (rest.drop 1).headD 0
          flags := (rest.drop 2).headD 0
          data := (rest.take l.toNat).drop 3 }
      if l.toNat + 1 < b.length then .trailing fields (rest.drop l.toNat) else .ok fields

/-- `WF(F)` (R103). -/
abbrev frameWf (f : List Byte) : Prop :=
  f.length = frameSize f ∧ hdrLen ≤ (f.headD 0).toNat ∧ (f.headD 0).toNat ≤ maxLength

/-- `STAMP(buf, a)`: byte 2 becomes a (R104). -/
def stampBuf (buf : Memory) (a : Byte) : Memory := buf.write 2 a

/-- `LQI_SPLIT(raw)` = (raw[7], raw[6:0]) (R105). -/
def lqiSplit (raw : Byte) : Bool × BitVec 7 := (raw.getLsbD 7, raw.extractLsb' 0 7)

/-- `RSSI_VAL(raw)` = sext_16(raw), read as a signed integer (R106). -/
def rssiVal (raw : Byte) : Int := (sext16 raw).toInt

end Sys2Proof.Machine
end

