-- ==== Sys2Proof/Machine/Receive.lean ====
section
/-! DEFINITION. Reception: the Receive Path (43_receive_path.md), run inside a dispatch, and the command
RECEIVE (44_adapter.md R167), which copies the buffered frame out. -/

namespace Sys2Proof.Machine

/-! ### The Receive Path -/

/-- The Receive Path's outcomes (30_encoding.md R91). -/
inductive RxOutcome where
  | delivered
  | rejected
  | abortedStatus
  | errState
  deriving DecidableEq, Repr

/-- The Log kind a dispatch emits for an outcome (42_fsm_isr.md R140, R147). -/
def RxOutcome.logs : RxOutcome → List Event
  | .delivered => []
  | .rejected => [.log .rxRejected]
  | .abortedStatus => [.log .rxAbortedStatus]
  | .errState => [.log .rxErrState]

/-- What RECEIVE, or UPPER inside the delivering dispatch, gets of the buffered frame (R184). -/
def upperCopyOf (s : State) : UpperCopy :=
  { len := s.rxLen, bytes := s.rxBuf.readBytes 0 s.rxLen.toNat, rssi := s.rxRssi, lqi := s.rxLqi }

/-- UPPER's optional in-dispatch pull (R184): a draw; it writes no block state. -/
def upperPullStep (s : State) : State :=
  { s with upperCopies := s.upperCopies ++ (if s.upperPull then [upperCopyOf s] else []) }

/-- Step P6's writes: the payload and its metadata (R159). -/
def storeFrame (b : List Byte) (n rssi : Byte) (q : BitVec 7) (s : State) : State :=
  { s with rxBuf := s.rxBuf.writeBytes 0 b, rxLen := n, rxRssi := rssi, rxLqi := q }

/-- Steps P6 and P7 (R159, R160): the payload read, the delivery, and the point where UPPER may pull. -/
def rxDeliver (n rssi : Byte) (q : BitVec 7) (s : State) : State :=
  let p := burstRead s.params.regRxFifo n.toNat s
  let stored := storeFrame p.1 n rssi q p.2
  upperPullStep ({ stored with statRx := stored.statRx + 1 }.emit .frameAvailable)

/-- Step P5 (R158): the integrity check, then P6 and P7. -/
def rxIntegrity (n rssi raw : Byte) (s : State) : RxOutcome × State :=
  if (lqiSplit raw).1 then (.delivered, rxDeliver n rssi (lqiSplit raw).2 s)
  else (.rejected, { s with statCrcFail := s.statCrcFail + 1 })

/-- Step P4 (R157): signal strength, then link quality. -/
def rxMetadata (n : Byte) (s : State) : RxOutcome × State :=
  let rssi := busRead s.params.regRssi s
  let raw := busRead s.params.regLqi rssi.2
  rxIntegrity n rssi.1 raw.1 raw.2

/-- `RX_PATH()`, steps P0 to P7 (R153 to R160). -/
def rxPath (s : State) : RxOutcome × State :=
  if s.state = RadioState.receivingBusy.code then
    let n := busRead s.params.regRxBytes s
    let st := busRead s.params.regRxStatus n.2
    if st.1 = s.params.rxStatusClean then rxMetadata n.1 st.2 else (.abortedStatus, st.2)
  else (.errState, s)

/-! ### RECEIVE -/

/-- Step V3: the metadata beside the result, and the count (R167). -/
def receiveV3 (s : State) : Outcome :=
  finishWith (countResult s.copyN.toNat) { rssi := s.copyRssi, lqi := s.copyLqi } s

/-- Step V2's body: one byte from `rx_buf` as it is now (R167; the torn copy of R168 case 3). -/
def copyByte (s : State) : State :=
  { s with hostOut := s.hostOut.write s.copyIdx (s.rxBuf.read s.copyIdx), copyIdx := s.copyIdx + 1 }

/-- Step V2 with `left` bytes to copy: a yield before each. -/
def receiveV2 : Nat → State → Outcome
  | 0, s => goto (.receive .v3) s receiveV3
  | left + 1, s => goto (.receive .v2) s fun s => receiveV2 left (copyByte s)

/-- Step V1's latching of the count and the metadata. -/
def latchFrame (s : State) : State :=
  { s with copyN := s.rxLen, copyRssi := s.rxRssi, copyLqi := s.rxLqi, copyIdx := 0 }

/-- Step V1 (R167). -/
def receiveV1 (s : State) : Outcome :=
  if s.maxLen < s.rxLen.toNat then finish errNoSpace (latchFrame s)
  else receiveV2 s.rxLen.toNat (latchFrame s)

/-- The rest of RECEIVE from a label. The yield at V2 has one byte's copy behind it. -/
def receiveFrom : ReceiveStep → State → Outcome
  | .v1, s => receiveV1 s
  | .v2, s => receiveV2 (s.copyN.toNat - (s.copyIdx + 1)) (copyByte s)
  | .v3, s => receiveV3 s

/-- RECEIVE, command byte 0x30 (R167). -/
def execReceive (maxLen : Byte) (s : State) : Outcome := accept (.receive .v1) [maxLen] s receiveV1

end Sys2Proof.Machine
end

