-- ==== Sys2Proof/Machine/Isr.lean ====
section
/-! DEFINITION. The dispatch rows (42_fsm_isr.md R138 to R145): the interrupt handler's action for each
key. -/

namespace Sys2Proof.Machine

/-- Receive-arm: `Strobe(STROBE_RX)` (R139). -/
def rearm (s : State) : State := strobe s.params.strobeRx s

/-- Row (Receiving, high) (R138). -/
def rowRxStart (s : State) : State := setRadio .receivingBusy s

/-- Row (Receiving, low) (R139). -/
def rowRxRearm (s : State) : State := rearm s

/-- Row (ReceivingBusy, low) (R140): the Receive Path, its log, the re-arm, the state. -/
def rowRxComplete (s : State) : State :=
  let r := rxPath s
  setRadio .receiving (rearm { r.2 with events := r.2.events ++ r.1.logs })

/-- Row (ReceivingBusy, high) (R141). -/
def rowMissedEdge (s : State) : State := s.emit (.log .missedEdge)

/-- Row (Transmitting, low) (R142). -/
def rowTxDone (s : State) : State := setRadio .receiving (rearm s)

/-- Row (Transmitting, high) (R143): no-op. -/
def rowTxBusy (s : State) : State := s

/-- Rows of every other state (R144): log only. -/
def rowUnhandled (s : State) : State := s.emit (.log .unhandled)

/-- DISPATCH_UNHANDLED, K = 0x0 to 0x3 (R144). -/
def execDispatchUnhandled (low : BitVec 2) (s : State) : Outcome :=
  takeDispatch (low.setWidth 4) rowUnhandled s

/-- DISPATCH_RX_REARM, K = 0x4 (R139). -/
def execDispatchRxRearm (s : State) : Outcome := takeDispatch 0x4 rowRxRearm s

/-- DISPATCH_RX_START, K = 0x5 (R138). -/
def execDispatchRxStart (s : State) : Outcome := takeDispatch 0x5 rowRxStart s

/-- DISPATCH_RX_COMPLETE, K = 0x6 (R140). -/
def execDispatchRxComplete (s : State) : Outcome := takeDispatch 0x6 rowRxComplete s

/-- DISPATCH_MISSED_EDGE, K = 0x7 (R141). -/
def execDispatchMissedEdge (s : State) : Outcome := takeDispatch 0x7 rowMissedEdge s

/-- DISPATCH_TX_DONE, K = 0x8 (R142). -/
def execDispatchTxDone (s : State) : Outcome := takeDispatch 0x8 rowTxDone s

/-- DISPATCH_TX_BUSY, K = 0x9 (R143). -/
def execDispatchTxBusy (s : State) : Outcome := takeDispatch 0x9 rowTxBusy s

/-- DISPATCH_UNHANDLED, K = 0xA and 0xB (R144). -/
def execDispatchUnhandledPowerDown (level : BitVec 1) (s : State) : Outcome :=
  takeDispatch (0xA ||| level.setWidth 4) rowUnhandled s

/-- DISPATCH_INVALID, K = 0xC to 0xF: `fault(INVALID_STATE)` (R145). Run as an instruction it is that fault in
every state (log 9). -/
def execDispatchInvalid (_low : BitVec 2) (_s : State) : Outcome := .fault .invalidState

end Sys2Proof.Machine
end

