-- ==== Sys2Proof/Machine/Records.lean ====
section
/-! DEFINITION. The bus record rows (30_encoding.md R89): each is one completed bus primitive, whose effect
on the block is its record at the end of the bus trace (20_memory.md R53; log 10). -/

namespace Sys2Proof.Machine

/-- `Rd(r, v)`: BusRead of r, answered v. -/
def execRecRd (r v : Byte) (s : State) : Outcome := .next (s.record (.rd r v))

/-- `Wr(r, v)`: BusWrite. -/
def execRecWr (r v : Byte) (s : State) : Outcome := .next (busWrite r v s)

/-- `BRd(r, b)`: BurstRead of r, answered b. -/
def execRecBrd (r : Byte) (b : List Byte) (s : State) : Outcome := .next (s.record (.brd r b))

/-- `BWr(r, b)`: BurstWrite. -/
def execRecBwr (r : Byte) (b : List Byte) (s : State) : Outcome := .next (burstWrite r b s)

/-- `St(c)`: Strobe. -/
def execRecSt (c : Byte) (s : State) : Outcome := .next (strobe c s)

/-- Kind 5: never produced; a trace containing one is refused (R89; 93_implementation_defined.md I5). -/
def execRecReserved5 (_s : State) : Outcome := .refused .reservedRecord

/-- Kinds 6 and 7: never produced; a trace containing one is refused. -/
def execRecReserved6 (_low : BitVec 1) (_s : State) : Outcome := .refused .reservedRecord

/-! ### The serialised trace (R89) -/

/-- The row of a record. -/
def recordRow : BusRecord → Instr
  | .rd r v => .recRd r v
  | .wr r v => .recWr r v
  | .brd r b => .recBrd r b
  | .bwr r b => .recBwr r b
  | .st c => .recSt c

/-- The record of a row: none for a reserved kind, and none for a row of another format. -/
def rowRecord (i : Instr) : Option BusRecord :=
  match i with
  | .recRd r v => some (.rd r v)
  | .recWr r v => some (.wr r v)
  | .recBrd r b => some (.brd r b)
  | .recBwr r b => some (.bwr r b)
  | .recSt c => some (.st c)
  | _ => none

/-- A trace as bytes. -/
def traceBytes : List BusRecord → List Byte
  | [] => []
  | r :: rs => encode (recordRow r) ++ traceBytes rs

/-- Read a serialised trace of at most `fuel` records; refused (none) where it holds a reserved record
(I5), a bad header, or the start of a record only. -/
def readTrace : Nat → List Byte → Option (List BusRecord)
  | _, [] => some []
  | 0, _ :: _ => none
  | fuel + 1, b :: bs =>
    match decodeRecord (b :: bs) with
    | .error _ => none
    | .ok (i, rest) =>
      match rowRecord i, readTrace fuel rest with
      | some r, some rs => some (r :: rs)
      | _, _ => none

end Sys2Proof.Machine
end

