-- ==== Sys2Proof/Machine/Send.lean ====
section
/-! DEFINITION. SEND and the Transmit Path (41_send_tx.md), one definition per step, in the order of R113
read from its end. -/

namespace Sys2Proof.Machine

/-- The latched frame's size (R115). -/
def State.size (s : State) : Nat := frameSize s.hostIn

/-- The bytes the Transmit Path bursts: `tx_buf[0 .. tx_len-1]` (R120). -/
def State.txBytes (s : State) : List Byte := s.txBuf.readBytes 0 s.txLen.toNat

/-- S1's eligible states (R114). State codes 6 and 7 are the fault of R35 before this is asked, not states that
time out (log 28). -/
def eligible (s : State) : Bool :=
  s.state == RadioState.idle.code || s.state == RadioState.receiving.code

/-- T6 (R124): state and mask stay as they are. -/
def sendT6 (s : State) : Outcome := finish errTxFail (setTxFault s)

/-- The result after the yield Y4 (R123). -/
def sendT5done (s : State) : Outcome := finish (countResult s.size) s

/-- T5's commit (R123). -/
def commitTx (s : State) : State :=
  let started := strobe s.params.strobeTx (setRadio .transmitting s)
  irqEnable { started with statTx := started.statTx + 1 }

/-- T5 (R123). -/
def sendT5 (s : State) : Outcome := goto (.send .t5done) (commitTx s) sendT5done

/-- The burst write of the Transmit Buffer (R120). -/
def burstTx (s : State) : State := burstWrite s.params.regTxFifo s.txBytes s

/-- T4 (R122): flush, rewrite once, re-check. -/
def sendT4 (s : State) : Outcome :=
  let c := busRead s.params.regTxBytes (burstTx { strobe s.params.strobeFlushTx s with retry := true })
  if c.1 = c.2.txLen then goto (.send .t5) c.2 sendT5 else goto (.send .t6) c.2 sendT6

/-- T3 (R121): the read-back. -/
def sendT3 (s : State) : Outcome :=
  let c := busRead s.params.regTxBytes s
  if c.1 = c.2.txLen then goto (.send .t5) c.2 sendT5 else goto (.send .t4) c.2 sendT4

/-- T2 (R120). -/
def sendT2 (s : State) : Outcome := goto (.send .t3) (burstTx s) sendT3

/-- T1 (R119). -/
def sendT1 (s : State) : Outcome := goto (.send .t2) { irqDisable s with retry := false } sendT2

/-- S5's copy and stamp (R118). -/
def fillTxBuf (s : State) : State :=
  { s with
    txBuf := stampBuf (s.txBuf.writeBytes 0 (s.hostIn.take s.size)) s.stamp
    txLen := u8 s.size }

/-- S5 (R118). A MemWrite past TXBUF's end is never issued (20_memory.md R47). -/
def sendS5 (s : State) : Outcome :=
  if maxFrame < s.size then .fault .bufferRange else goto (.send .t1) (fillTxBuf s) sendT1

/-- S4 (R117): the FIFO prelude. -/
def sendS4 (s : State) : Outcome :=
  goto (.send .s5) (strobe s.params.strobeFlushTx (strobe s.params.strobeIdle s)) sendS5

/-- S3 after its yield Y3 (R116): mask, then force the state. -/
def sendS3mask (s : State) : Outcome := goto (.send .s4) (setRadio .transmitting (irqDisable s)) sendS4

/-- S3 up to its yield (R116): the source address is taken. -/
def sendS3 (s : State) : Outcome := goto (.send .s3mask) { s with stamp := s.nodeAddr } sendS3mask

/-- S2 after its yield Y2 (R115): the size check. -/
def sendS2 (s : State) : Outcome :=
  if maxFrame < s.size then finish errSize s else goto (.send .s3) s sendS3

/-- One sleep of S1's poll is over (R114). -/
def countSleep (s : State) : State := { s with pollK := s.pollK + 1 }

/-- S1's loop after its yield Y1, with `left` sleeps left before the bound (R114). A reserved state code
does not come here: `checkState` (log 28). -/
def sendCheck : Nat → State → Outcome
  | left, s =>
    if eligible s then goto (.send .s2) s sendS2
    else
      match left with
      | 0 => finish errTimeout s
      | left + 1 => goto (.send .s1sleep) s fun s => goto (.send .s1check) (countSleep s) (sendCheck left)

/-- S1's first line (R114, R39). -/
def startPoll (s : State) : State := { s with pollK := 0, retry := false }

/-- S1 up to its first yield Y1 (R114). -/
def sendS1 (s : State) : Outcome := goto (.send .s1check) (startPoll s) (sendCheck pollMax)

/-- The rest of SEND from a label. -/
def sendFrom : SendStep → State → Outcome
  | .s1, s => sendS1 s
  | .s1check, s => sendCheck (pollMax - s.pollK) s
  | .s1sleep, s => goto (.send .s1check) (countSleep s) (sendCheck (pollMax - (s.pollK + 1)))
  | .s2, s => sendS2 s
  | .s3, s => sendS3 s
  | .s3mask, s => sendS3mask s
  | .s4, s => sendS4 s
  | .s5, s => sendS5 s
  | .t1, s => sendT1 s
  | .t2, s => sendT2 s
  | .t3, s => sendT3 s
  | .t4, s => sendT4 s
  | .t5, s => sendT5 s
  | .t5done, s => sendT5done s
  | .t6, s => sendT6 s

/-- SEND, command byte 0x20 (R113). -/
def execSend (frame : List Byte) (s : State) : Outcome := accept (.send .s1) frame s sendS1

end Sys2Proof.Machine
end

