-- ==== Sys2Proof/Machine/Dispatch.lean ====
section
/-! DEFINITION. One arm per instruction: its meaning. -/

namespace Sys2Proof.Machine

def exec (i : Instr) (s : State) : Host.Outcome State Fault Refusal :=
  match i with
  | .init => Sys2Proof.Machine.execInit s
  | .send frame => Sys2Proof.Machine.execSend frame s
  | .receive m => Sys2Proof.Machine.execReceive m s
  | .getDeviceType m => Sys2Proof.Machine.execGetDeviceType m s
  | .getProto m => Sys2Proof.Machine.execGetProto m s
  | .getChannel m => Sys2Proof.Machine.execGetChannel m s
  | .getAddress m => Sys2Proof.Machine.execGetAddress m s
  | .getMaxFrame m => Sys2Proof.Machine.execGetMaxFrame m s
  | .getIid m => Sys2Proof.Machine.execGetIid m s
  | .getOpt6 m => Sys2Proof.Machine.execGetOpt6 m s
  | .getOpt7 m => Sys2Proof.Machine.execGetOpt7 m s
  | .getOpt8 m => Sys2Proof.Machine.execGetOpt8 m s
  | .getOpt9 m => Sys2Proof.Machine.execGetOpt9 m s
  | .getOptA m => Sys2Proof.Machine.execGetOptA m s
  | .getOptB m => Sys2Proof.Machine.execGetOptB m s
  | .getOptC m => Sys2Proof.Machine.execGetOptC m s
  | .getOptD m => Sys2Proof.Machine.execGetOptD m s
  | .getOptE m => Sys2Proof.Machine.execGetOptE m s
  | .getOptF m => Sys2Proof.Machine.execGetOptF m s
  | .setDeviceType v => Sys2Proof.Machine.execSetDeviceType v s
  | .setProto v => Sys2Proof.Machine.execSetProto v s
  | .setChannel v => Sys2Proof.Machine.execSetChannel v s
  | .setAddress v => Sys2Proof.Machine.execSetAddress v s
  | .setMaxFrame v => Sys2Proof.Machine.execSetMaxFrame v s
  | .setIid v => Sys2Proof.Machine.execSetIid v s
  | .setOpt6 v => Sys2Proof.Machine.execSetOpt6 v s
  | .setOpt7 v => Sys2Proof.Machine.execSetOpt7 v s
  | .setOpt8 v => Sys2Proof.Machine.execSetOpt8 v s
  | .setOpt9 v => Sys2Proof.Machine.execSetOpt9 v s
  | .setOptA v => Sys2Proof.Machine.execSetOptA v s
  | .setOptB v => Sys2Proof.Machine.execSetOptB v s
  | .setOptC v => Sys2Proof.Machine.execSetOptC v s
  | .setOptD v => Sys2Proof.Machine.execSetOptD v s
  | .setOptE v => Sys2Proof.Machine.execSetOptE v s
  | .setOptF v => Sys2Proof.Machine.execSetOptF v s
  | .illegalOpc0 low => Sys2Proof.Machine.execIllegalOpc0 low s
  | .illegalInit1 => Sys2Proof.Machine.execIllegalInit1 s
  | .illegalInit2 low => Sys2Proof.Machine.execIllegalInit2 low s
  | .illegalInit4 low => Sys2Proof.Machine.execIllegalInit4 low s
  | .illegalInit8 low => Sys2Proof.Machine.execIllegalInit8 low s
  | .illegalSend1 => Sys2Proof.Machine.execIllegalSend1 s
  | .illegalSend2 low => Sys2Proof.Machine.execIllegalSend2 low s
  | .illegalSend4 low => Sys2Proof.Machine.execIllegalSend4 low s
  | .illegalSend8 low => Sys2Proof.Machine.execIllegalSend8 low s
  | .illegalReceive1 => Sys2Proof.Machine.execIllegalReceive1 s
  | .illegalReceive2 low => Sys2Proof.Machine.execIllegalReceive2 low s
  | .illegalReceive4 low => Sys2Proof.Machine.execIllegalReceive4 low s
  | .illegalReceive8 low => Sys2Proof.Machine.execIllegalReceive8 low s
  | .illegalOpc6 low => Sys2Proof.Machine.execIllegalOpc6 low s
  | .illegalOpc8 low => Sys2Proof.Machine.execIllegalOpc8 low s
  | .dispatchUnhandled k => Sys2Proof.Machine.execDispatchUnhandled k s
  | .dispatchRxRearm => Sys2Proof.Machine.execDispatchRxRearm s
  | .dispatchRxStart => Sys2Proof.Machine.execDispatchRxStart s
  | .dispatchRxComplete => Sys2Proof.Machine.execDispatchRxComplete s
  | .dispatchMissedEdge => Sys2Proof.Machine.execDispatchMissedEdge s
  | .dispatchTxDone => Sys2Proof.Machine.execDispatchTxDone s
  | .dispatchTxBusy => Sys2Proof.Machine.execDispatchTxBusy s
  | .dispatchUnhandledPowerDown l => Sys2Proof.Machine.execDispatchUnhandledPowerDown l s
  | .dispatchInvalid k => Sys2Proof.Machine.execDispatchInvalid k s
  | .recRd r v => Sys2Proof.Machine.execRecRd r v s
  | .recWr r v => Sys2Proof.Machine.execRecWr r v s
  | .recBrd r b => Sys2Proof.Machine.execRecBrd r b s
  | .recBwr r b => Sys2Proof.Machine.execRecBwr r b s
  | .recSt c => Sys2Proof.Machine.execRecSt c s
  | .recReserved5 => Sys2Proof.Machine.execRecReserved5 s
  | .recReserved6 k => Sys2Proof.Machine.execRecReserved6 k s

end Sys2Proof.Machine
end

