-- ==== Sys2Proof/Machine/Resume.lean ====
section
/-! DEFINITION. Going on with the operation in progress, and the moves of the agents other than TASK
(10_state.md R18, R38; log 1, 2). -/

namespace Sys2Proof.Machine

/-- TASK's next step of the operation in progress, and its further steps where no move is pending. With
op = NONE there is none. -/
def resumeOp (s : State) : Outcome :=
  match s.pos with
  | .none => .next s
  | .init l => initFrom l s
  | .send l => sendFrom l s
  | .receive l => receiveFrom l s
  | .get opt => getG1 opt s
  | .set l => setFrom l s

/-- Whether the schedule's dispatch can be taken here: an interleaving point, enabled and pending (R60,
R136). -/
def canDispatch (s : State) : Bool := s.pos.isYield && dispatchReady s

/-- Run with no move pending, then take up the rest of the schedule. -/
def undisturbed (f : State → Outcome) (rest : List Move) (s : State) : Outcome :=
  match f { s with sched := [] } with
  | .next t => .next { t with sched := rest }
  | .fault r => .fault r
  | .refused r => .refused r

/-- What the command port holds: a whole command with the bytes after it, or nothing whole yet (R80;
log 17). -/
def portCommand (s : State) : Option (Instr × List Byte) :=
  match decodeCmd s.port with
  | .ok r => some r
  | .error _ => none

/-- TASK waits: no operation is in progress and nothing whole is at the port (60_exceptions.md R208). -/
def taskWaits (s : State) : Bool := decide (s.pos = .none) && (portCommand s).isNone

/-- The bytes of the instruction a table word stands for. -/
def wordBytes (nbits w : Nat) : List Byte :=
  match decodeTableWord nbits w with
  | some i => encode i
  | none => []

/-- Present a table word to the machine so that the next step runs it: a command at the port, or, for a
word of at most four bits, a dispatch key as the pending dispatch, without UPPER's pull (log 11, 12, 15). -/
def presentWord (nbits w : Nat) (s : State) : State :=
  if nbits ≤ 4 then
    { s with
      state := (BitVec.ofNat 4 w).extractLsb' 1 3
      evtPin := (BitVec.ofNat 4 w).getLsbD 0
      pinPrev := (BitVec.ofNat 4 w).getLsbD 0
      irqEn := true
      irqPend := true
      pos := .none
      sched := [.dispatch false] }
  else { s with port := wordBytes nbits w, pos := .none, sched := [] }

end Sys2Proof.Machine
end

