-- ==== Sys2Proof/Machine/Agents.lean ====
section
/-! DEFINITION. What each agent does when it is its turn (10_state.md R18, 20_memory.md R60, 60_exceptions.md
R198; log 1, 2). -/

namespace Sys2Proof.Machine

/-- TASK acts: with op = NONE the port's next whole command is accepted and run, otherwise the operation
in progress goes on. With nothing whole at the port it waits. -/
def taskStep (s : State) : Outcome :=
  if s.pos = .none then
    match portCommand s with
    | none => .next s
    | some (i, rest) => exec i { s with port := rest }
  else resumeOp s

/-- ISR acts, where it can: the row of the key (state, level). -/
def isrStep (s : State) : Outcome :=
  if canDispatch s then exec (decodeKey (dispatchKey s)) s else .next s

/-- A command arrives at the port: taken in while op is NONE, refused while an operation is in progress
(44_adapter.md R165, 60_exceptions.md R194 (b); log 26). -/
def presentBytes (bytes : List Byte) (s : State) : Outcome :=
  if s.pos = .none then .next { s with port := s.port ++ bytes } else .refused .portBusy

/-- TASK has stopped: the atomic block it is in ends, one label a step (00_scope.md R12), and at an
interleaving point it takes no step; ISR takes a pending, enabled dispatch there (42_fsm_isr.md R136,
70_reset_and_hazards.md R226; log 19). -/
def stoppedStep (s : State) : Outcome := if s.pos.isYield then isrStep s else resumeOp s

/-- One move of the schedule; s holds the moves after it. A `stop` stays while nothing comes after it. -/
def moveStep (m : Move) (s : State) : Outcome :=
  match m with
  | .task => taskStep s
  | .run => undisturbed taskStep s.sched s
  | .pin level => .next (pinChange level s)
  | .dispatch pull => isrStep { s with upperPull := pull }
  | .stop => if s.sched.isEmpty then stoppedStep { s with sched := [.stop] } else .next s
  | .present bytes => presentBytes bytes s
  | .answer script => .next { s with answers := s.answers ++ script }
  | .reset tx rx => .next (resetBlock tx rx s)

/-- With no move pending: TASK acts undisturbed, and where it waits a pending, enabled dispatch is taken, so
that none waits for ever (42_fsm_isr.md R136, 70_reset_and_hazards.md R226; log 19). -/
def restStep (s : State) : Outcome := if taskWaits s && dispatchReady s then isrStep s else taskStep s

/-- What happens next: the next move of the schedule, or the rest. -/
def nextStep (s : State) : Outcome :=
  match s.sched with
  | [] => restStep s
  | m :: rest => moveStep m { s with sched := rest }

end Sys2Proof.Machine
end

