-- ==== Sys2Proof/Machine/Step.lean ====
section
/-! DEFINITION. One step of the machine: what the agent whose turn it is does (70_reset_and_hazards.md R226),
in a state that is one of the six (10_state.md R35). -/

namespace Sys2Proof.Machine

/-- One step. -/
def step (s : State) : Host.Outcome State Fault Refusal := checkState s (nextStep s)

/-- The state in which the next step runs the table word's instruction. -/
def State.withFetchWord (s : State) (nbits w : Nat) : State := presentWord nbits w s

end Sys2Proof.Machine
end

