-- ==== Sys2Proof/Machine/Assembler.lean ====
section
/-! DEFINITION. The command syntax, the pseudo-instructions and the environment directives
(30_encoding.md R92 to R94), and how a program of such lines is presented to the machine. -/

namespace Sys2Proof.Machine

/-- An option as a line names it: by name, or `OPT<n>` for a raw id (R92). -/
inductive OptName where
  | deviceType
  | proto
  | channel
  | address
  | maxFrame
  | iid
  | raw (n : BitVec 4)
  deriving DecidableEq, Repr

/-- `id(opt)` (R79, R92). -/
def optId : OptName → BitVec 4
  | .deviceType => 0
  | .proto => 1
  | .channel => 2
  | .address => 3
  | .maxFrame => 4
  | .iid => 5
  | .raw n => n

/-- A transceiver register as an `@XCVR` line names it: by name, or by number (R94; 95_test_vectors.md, The
`@XCVR` lists). -/
inductive RegName where
  | txFifo
  | rxFifo
  | txBytes
  | rxBytes
  | rxStatus
  | rssi
  | lqi
  | channel
  | raw (r : Byte)
  deriving DecidableEq, Repr

/-- The register's identifier, a parameter (00_scope.md R7). -/
def regId (p : Params) : RegName → Byte
  | .txFifo => p.regTxFifo
  | .rxFifo => p.regRxFifo
  | .txBytes => p.regTxBytes
  | .rxBytes => p.regRxBytes
  | .rxStatus => p.regRxStatus
  | .rssi => p.regRssi
  | .lqi => p.regLqi
  | .channel => p.regChannel
  | .raw r => r

/-- An answer as an `@XCVR` line writes it: a byte, `CLEAN`, or `BAD`, any other status (95_test_vectors.md). -/
inductive XcvrWord where
  | byte (v : Byte)
  | clean
  | bad
  deriving DecidableEq, Repr

/-- One line of a program. -/
inductive Line where
  | init
  | send (bytes : List Byte)
  | receive (maxLen : Byte)
  | get (opt : OptName) (maxLen : Byte)
  | set (opt : OptName) (value : List Byte)
  -- pseudo-instructions (R93)
  | sendTo (dst flags : Byte) (data : List Byte)
  | setChan (v : Byte)
  | setAddr (v : Byte)
  | getIid
  -- environment directives (R94): no encoding
  | pin (level : Bool)
  | dispatch
  | xcvr (answers : List (RegName × XcvrWord))
  -- a line that holds only a comment
  | blank
  deriving DecidableEq, Repr

/-- The command a line stands for: none for a directive, and none where the assembler refuses the line:
SEND with a byte count other than b0 + 1 (R92), SENDTO with more than MAX_DATA bytes (R93), a SET value
that no `vlen` counts (R80). -/
def lineCommand : Line → Option Instr
  | .init => some .init
  | .send bs => if frameOperandWf bs then some (.send bs) else none
  | .receive m => some (.receive m)
  | .get o m => some (getRow (optId o) m)
  | .set o v => if countedWf v then some (setRow (optId o) v) else none
  | .sendTo dst flags data => (frameEnc dst 0x00 flags data).map .send
  | .setChan v => some (setRow (optId .channel) [v])
  | .setAddr v => some (setRow (optId .address) [v])
  | .getIid => some (getRow (optId .iid) 8)
  | .pin _ | .dispatch | .xcvr _ | .blank => none

/-- A command line's bytes (R92). -/
def assemble (l : Line) : Option (List Byte) := (lineCommand l).map encode

/-- The value `BAD` stands for: a free value other than RX_STATUS_CLEAN (log 25). -/
def badStatus (s : State) : Byte :=
  let v := Config.freeByte s.draws
  if v = s.params.rxStatusClean then v + 1 else v

/-- The value of a written answer; `BAD` uses up a free value. -/
def wordValue (w : XcvrWord) (s : State) : Byte × State :=
  match w with
  | .byte v => (v, s)
  | .clean => (s.params.rxStatusClean, s)
  | .bad => (badStatus s, { s with draws := s.draws + 1 })

/-- The script of an `@XCVR` line. -/
def scriptOf : List (RegName × XcvrWord) → State → List Answer × State
  | [], s => ([], s)
  | (r, w) :: ws, s =>
    let v := wordValue w s
    let rest := scriptOf ws v.2
    ({ reg := regId s.params r, value := v.1 } :: rest.1, rest.2)

/-- Put moves at the end of the schedule. -/
def State.schedule (s : State) (ms : List Move) : State := { s with sched := s.sched ++ ms }

/-- Present one line, as moves of the agents in the order of the lines (R94): a command arrives at the port
and runs to its end; a directive is a move of XCVR or of the scheduler. Whether UPPER pulls in the dispatch
of an `@DISPATCH` line R94 does not say: the model's choice is that it does not, as in P2 of
95_test_vectors.md (DESIGN CHOICE, log 25). None where the assembler refuses the line. -/
def loadLine (l : Line) (s : State) : Option State :=
  match l with
  | .pin level => some (s.schedule [.pin level])
  | .dispatch => some (s.schedule [.dispatch false])
  | .xcvr ws => some ((scriptOf ws s).2.schedule [.answer (scriptOf ws s).1])
  | .blank => some s
  | _ =>
    match assemble l with
    | none => none
    | some bs => some (s.schedule [.present bs, .run])

/-- Present a program, line by line. -/
def loadProgram : List Line → State → Option State
  | [], s => some s
  | l :: ls, s =>
    match loadLine l s with
    | none => none
    | some t => loadProgram ls t

/-! ### The text of a line -/

/-- Blanks around an item do not count. -/
def isBlank (c : Char) : Bool := c == ' ' || c == '\t'

/-- An item without the blanks around it. -/
def trimBlanks (cs : List Char) : List Char := ((cs.dropWhile isBlank).reverse.dropWhile isBlank).reverse

/-- The items between separators. -/
def splitAt (sep : Char) : List Char → List (List Char)
  | [] => [[]]
  | c :: cs =>
    match splitAt sep cs with
    | [] => [[c]]
    | w :: ws => if c == sep then [] :: w :: ws else (c :: w) :: ws

/-- The value of a digit of a number written in a base. -/
def digitValue (base : Nat) (c : Char) : Option Nat :=
  let n := c.toNat
  let v :=
    if 48 ≤ n ∧ n ≤ 57 then n - 48
    else if 65 ≤ n ∧ n ≤ 70 then n - 55
    else if 97 ≤ n ∧ n ≤ 102 then n - 87
    else base
  if v < base then some v else none

/-- Digits read from the left onto a value. -/
def digitsValue (base : Nat) : Nat → List Char → Option Nat
  | acc, [] => some acc
  | acc, c :: cs =>
    match digitValue base c with
    | none => none
    | some d => digitsValue base (base * acc + d) cs

/-- A number: decimal, or `0x` hexadecimal (R92). -/
def numberValue : List Char → Option Nat
  | [] => none
  | ['0', 'x'] => none
  | '0' :: 'x' :: ds => digitsValue 16 0 ds
  | ds => digitsValue 10 0 ds

/-- A number that is one byte. -/
def byteValue (cs : List Char) : Option Byte :=
  match numberValue (trimBlanks cs) with
  | none => none
  | some n => if n < 256 then some (u8 n) else none

/-- A list of byte operands. -/
def byteValues : List (List Char) → Option (List Byte)
  | [] => some []
  | w :: ws =>
    match byteValue w, byteValues ws with
    | some b, some bs => some (b :: bs)
    | _, _ => none

/-- An option name. -/
def optValue (cs : List Char) : Option OptName :=
  let w := trimBlanks cs
  if w = "DEVICE_TYPE".toList then some .deviceType
  else if w = "PROTO".toList then some .proto
  else if w = "CHANNEL".toList then some .channel
  else if w = "ADDRESS".toList then some .address
  else if w = "MAX_FRAME".toList then some .maxFrame
  else if w = "IID".toList then some .iid
  else
    match w with
    | 'O' :: 'P' :: 'T' :: ds =>
      match numberValue ds with
      | none => none
      | some n => if n < 16 then some (.raw (BitVec.ofNat 4 n)) else none
    | _ => none

/-- A register's name or number. -/
def regValue (cs : List Char) : Option RegName :=
  let w := trimBlanks cs
  if w = "TXFIFO".toList then some .txFifo
  else if w = "RXFIFO".toList then some .rxFifo
  else if w = "TXBYTES".toList then some .txBytes
  else if w = "RXBYTES".toList then some .rxBytes
  else if w = "RXSTATUS".toList then some .rxStatus
  else if w = "RSSI".toList then some .rssi
  else if w = "LQI".toList then some .lqi
  else if w = "CHANNEL".toList then some .channel
  else (byteValue w).map .raw

/-- The words of a byte string, between blanks. -/
def wordsOf (cs : List Char) : List (List Char) :=
  (splitAt ' ' (cs.map fun c => if isBlank c then ' ' else c)).filter fun w => !w.isEmpty

/-- One byte of a byte string: hexadecimal digits, as the spec writes byte strings. -/
def hexByte (w : List Char) : Option Byte :=
  match digitsValue 16 0 w with
  | none => none
  | some n => if n < 256 then some (u8 n) else none

/-- A byte string. -/
def hexBytes : List (List Char) → Option (List Byte)
  | [] => some []
  | w :: ws =>
    match hexByte w, hexBytes ws with
    | some b, some bs => some (b :: bs)
    | _, _ => none

/-- What is written after a register's name: a byte string for the burst register, else one answer. -/
def xcvrItem (r : RegName) (cs : List Char) : Option (List (RegName × XcvrWord)) :=
  let w := trimBlanks cs
  if r = .rxFifo then (hexBytes (wordsOf w)).map fun bs => bs.map fun b => (r, .byte b)
  else if w = "CLEAN".toList then some [(r, .clean)]
  else if w = "BAD".toList then some [(r, .bad)]
  else (byteValue w).map fun b => [(r, .byte b)]

/-- The answers of an `@XCVR` directive (R94): items `r = v`; an item without a name answers the next read
of the register last named. -/
def xcvrItems : Option RegName → List (List Char) → Option (List (RegName × XcvrWord))
  | _, [] => some []
  | last, item :: items =>
    match (match splitAt '=' item with
      | [v] => last.bind fun r => (xcvrItem r v).map fun ws => (r, ws)
      | [r, v] => (regValue r).bind fun r => (xcvrItem r v).map fun ws => (r, ws)
      | _ => none) with
    | none => none
    | some (r, ws) => (xcvrItems (some r) items).map fun rest => ws ++ rest

/-- The line of a head word and its operands. -/
def lineOf (head : List Char) (ops : List (List Char)) : Option Line :=
  if head = [] then (if ops = [] then some .blank else none)
  else if head = "INIT".toList then (if ops = [] then some .init else none)
  else if head = "SEND".toList then (byteValues ops).map .send
  else if head = "RECEIVE".toList then
    match byteValues ops with
    | some [m] => some (.receive m)
    | _ => none
  else if head = "GET".toList then
    match ops with
    | [o, m] =>
      match optValue o, byteValue m with
      | some o, some m => some (.get o m)
      | _, _ => none
    | _ => none
  else if head = "SET".toList then
    match ops with
    | o :: vs =>
      match optValue o, byteValues vs with
      | some o, some vs => some (.set o vs)
      | _, _ => none
    | _ => none
  else if head = "SENDTO".toList then
    match byteValues ops with
    | some (dst :: flags :: data) => some (.sendTo dst flags data)
    | _ => none
  else if head = "SETCHAN".toList then
    match byteValues ops with
    | some [v] => some (.setChan v)
    | _ => none
  else if head = "SETADDR".toList then
    match byteValues ops with
    | some [v] => some (.setAddr v)
    | _ => none
  else if head = "GETIID".toList then (if ops = [] then some .getIid else none)
  else if head = "@PIN".toList then
    match byteValues ops with
    | some [v] => if v = 0 then some (.pin false) else if v = 1 then some (.pin true) else none
    | _ => none
  else if head = "@DISPATCH".toList then (if ops = [] then some .dispatch else none)
  else if head = "@XCVR".toList then (xcvrItems none ops).map .xcvr
  else none

/-- Read one line: `;` starts a comment, a blank ends the head word, commas separate operands (R92). -/
def parseLine (cs : List Char) : Option Line :=
  let code := trimBlanks (cs.takeWhile (· != ';'))
  let head := code.takeWhile (fun c => !isBlank c)
  let rest := trimBlanks (code.dropWhile (fun c => !isBlank c))
  lineOf head (if rest = [] then [] else splitAt ',' rest)

end Sys2Proof.Machine
end

