-- ==== Sys2Proof/Machine/System.lean ====
section
/-! DEFINITION. Several Device Contexts (10_state.md R17, 60_exceptions.md R206): independent instances of the
whole machine, each with its own transport. -/

namespace Sys2Proof.Machine

/-- One instance: the transport it drives, and its Device Context. -/
structure Node where
  transport : Nat
  ctx : State
  deriving DecidableEq, Repr

/-- What an instance is bound to when the model is instantiated (70_reset_and_hazards.md R213): its
transport, its parameters, and the level of its event pin at reset. -/
structure Binding where
  transport : Nat
  params : Params
  pin : Bool
  deriving DecidableEq, Repr

/-- Instantiation: at least one context (R7), no two on one transport (R221); otherwise refused. -/
def instantiate (bs : List Binding) : Option (List Node) :=
  if bs ≠ [] ∧ (bs.map Binding.transport).Nodup then
    some (bs.map fun b => { transport := b.transport, ctx := State.initial b.params b.pin })
  else none

/-- One instance takes a step; no other changes (R17, R206). None where there is no such instance, or
its machine stops. -/
def stepNode : List Node → Nat → Option (List Node)
  | [], _ => none
  | n :: ns, 0 =>
    match step n.ctx with
    | .next t => some ({ n with ctx := t } :: ns)
    | .fault _ => none
    | .refused _ => none
  | n :: ns, k + 1 =>
    match stepNode ns k with
    | none => none
    | some ms => some (n :: ms)

end Sys2Proof.Machine
end

