-- ==== Sys2Proof/Safety.lean ====
section
/-! DEFINITION. What counts as a safe state, in the terms the statements use: the spec's own promises about
the whole machine (10_state.md R20, R22, R33, R35, R37; 20_memory.md R47, R62; 41_send_tx.md R124, R131). -/

namespace Sys2Proof

/-- The rows of the illegal command bytes (30_encoding.md R85). -/
def Instr.illegal : Instr → Bool
  | .illegalOpc0 _ | .illegalInit1 | .illegalInit2 _ | .illegalInit4 _ | .illegalInit8 _
  | .illegalSend1 | .illegalSend2 _ | .illegalSend4 _ | .illegalSend8 _
  | .illegalReceive1 | .illegalReceive2 _ | .illegalReceive4 _ | .illegalReceive8 _
  | .illegalOpc6 _ | .illegalOpc8 _ => true
  | _ => false

end Sys2Proof

namespace Sys2Proof.Machine

/-- `state` holds one of the six defined codes (R35). -/
abbrev State.Legal (s : State) : Prop := s.state.toNat < numStates

/-- In one of the six states, between commands, with no move pending: a command then runs to its end
undisturbed (log 2). -/
abbrev State.Ready (s : State) : Prop := s.Legal ∧ s.pos = .none ∧ s.sched = []

/-- It is ISR's turn: its move comes next in the schedule; or no move is left, TASK waits, and a dispatch is
enabled and pending; or TASK has stopped, at an interleaving point (log 1, 19). -/
abbrev State.IsrTurn (s : State) : Prop :=
  (∃ pull rest, s.sched = .dispatch pull :: rest) ∨
    (s.sched = [] ∧ taskWaits s = true ∧ dispatchReady s = true) ∨
    (s.sched = [.stop] ∧ s.pos.isYield = true)

/-- One of SEND's eligible states (41_send_tx.md R114). -/
abbrev State.Eligible (s : State) : Prop :=
  s.state = RadioState.idle.code ∨ s.state = RadioState.receiving.code

/-- SEND's masked region: the labels between S3's mask and T5's unmask, and T6's (R62, R131). -/
def Pos.sendMasked : Pos → Bool
  | .send .s4 | .send .s5 | .send .t1 | .send .t2 | .send .t3 | .send .t4 | .send .t5 | .send .t6 => true
  | _ => false

/-- INIT's masked region: the labels between I1 and I7 (R166). -/
def Pos.initMasked : Pos → Bool
  | .init .i2 | .init .i3 | .init .i4 | .init .i5 | .init .i6 | .init .i7 => true
  | _ => false

/-- SEND's labels after its size check (R115). -/
def Pos.sizeChecked : Pos → Bool
  | .send .s1 | .send .s1check | .send .s1sleep | .send .s2 => false
  | .send _ => true
  | _ => false

/-- SEND's labels after the copy into the Transmit Buffer (R118). -/
def Pos.txLoaded : Pos → Bool
  | .send .t1 | .send .t2 | .send .t3 | .send .t4 | .send .t5 | .send .t5done | .send .t6 => true
  | _ => false

/-- SEND's labels between its poll and its mask, where R215's race may come in. -/
def Pos.raced : Pos → Bool
  | .send .s2 | .send .s3 | .send .s3mask => true
  | _ => false

/-- The labels that a run with `tx_fault` set does not reach: SEND's after its poll, INIT's after I2
(R124, R166). -/
def Pos.faultFree : Pos → Bool
  | .send .s1 | .send .s1check | .send .s1sleep => false
  | .send _ => true
  | .init .i1 | .init .i2 => false
  | .init _ => true
  | _ => false

/-- The invariant of the machine. -/
structure MachineInv (s : State) : Prop where
  /-- The instance's parameters keep the constraints of 00_scope.md R7. -/
  paramsWf : s.params.wf
  /-- R35. -/
  legal : s.Legal
  /-- R20: `node_addr` never holds 0. -/
  addrLegal : s.nodeAddr ≠ broadcast
  /-- R22. -/
  channelLow : s.params.chanMin ≤ s.channel
  channelHigh : s.channel ≤ s.params.chanMax
  /-- R33: `stat_rx_while_tx` is never incremented. -/
  rxWhileTxZero : s.statRxWhileTx = 0
  /-- R27, R29, R46 to R48: the buffers are in canonical form and inside their spaces. -/
  txBufWf : s.txBuf.wf
  txBufIn : s.txBuf.within maxFrame
  rxBufWf : s.rxBuf.wf
  rxBufIn : s.rxBuf.within maxFrame
  hostOutWf : s.hostOut.wf
  hostOutIn : s.hostOut.within maxFrame
  /-- R37: `poll_k` is 0 to POLL_MAX; before a sleep it is below POLL_MAX (R114). -/
  pollBound : s.pollK ≤ pollMax
  sleepBound : s.pos = .send .s1sleep → s.pollK < pollMax
  /-- R62, R131: the masked region. -/
  sendMask : s.pos.sendMasked = true → s.irqEn = false ∧ s.state = RadioState.transmitting.code
  initMask : s.pos.initMasked = true → s.irqEn = false
  /-- R150: what SEND's S3 may find, past its poll. -/
  raceStates : s.pos.raced = true → s.Eligible ∨ s.state = RadioState.receivingBusy.code
  /-- R115, R47: the copied frame fits TXBUF, and `tx_len` is its size (R118). -/
  sizeOk : s.pos.sizeChecked = true → s.size ≤ maxFrame
  txLenOk : s.pos.txLoaded = true → s.txLen = u8 s.size
  /-- R167: RECEIVE copies a byte of the latched count. -/
  copyBound : s.pos = .receive .v2 → s.copyIdx < s.copyN.toNat
  /-- R178, R179: what SET CHANNEL and SET ADDRESS are about to store is legal, and what SET CHANNEL is about
  to write is the stored channel. -/
  channelChecked : s.pos = .set .c2 → s.params.chanMin ≤ s.setValue ∧ s.setValue ≤ s.params.chanMax
  addressChecked : s.pos = .set .a2 → s.setValue ≠ broadcast
  channelLatched : s.pos = .set .c2write → s.setValue = s.channel
  /-- R25, R133: EDGE has seen every change of the pin. -/
  pinSeen : s.pinPrev = s.evtPin
  /-- R210: before an INIT no dispatch can run, and INIT leaves Unknown before it unmasks. -/
  unknownMasked : s.state = RadioState.unknown.code → s.irqEn = false
  initLeft : s.pos = .init .i6 ∨ s.pos = .init .i7 → s.state ≠ RadioState.unknown.code
  /-- R124, R218: after a double transmit failure the device stays Transmitting and masked. -/
  faultLock : s.txFault = true → s.irqEn = false ∧ s.state = RadioState.transmitting.code
  faultFree : s.pos.faultFree = true → s.txFault = false

/-! ### Runs and fairness (42_fsm_isr.md R136, 70_reset_and_hazards.md R226) -/

/-- A run that does not end, each state as its step begins: before every step each agent may add to the
schedule what it does next, TASK or no one at all, so that a run has any number of moves of any agent, and none
of TASK's need come (R18, R226; log 19). -/
def IsRun (run : Nat → State) : Prop := ∀ k, ∃ t ms, step (run k) = .next t ∧ run (k + 1) = t.schedule ms

/-- A run to whose schedule nothing is added: the machine's steps alone. -/
def UnattendedRun (run : Nat → State) : Prop := ∀ k, step (run k) = .next (run (k + 1))

/-- The step from s takes a dispatch. -/
def TakesDispatch (s : State) : Prop := s.IsrTurn ∧ canDispatch s = true

/-- Weak fairness of the dispatch (R136), the one liveness assumption of the spec (R226): a dispatch that stays
enabled and pending is taken in the end. So from every moment on there is one at which it is taken, or is not
both enabled and pending. A run need not be weakly fair; a liveness claim that needs it takes it as a premise.
Nothing of the kind is assumed of TASK. -/
def WeaklyFair (run : Nat → State) : Prop :=
  ∀ k, ∃ j, k ≤ j ∧ (dispatchReady (run j) = false ∨ TakesDispatch (run j))

end Sys2Proof.Machine
end

