-- ==== Sys2Proof/Certificates/Slice0/Obligations.lean ====
section
/-! DEFINITION. The statements for the provers. Each docstring names the rule of spec/ it formalises;
where it rests on the model's own choice it names the log entry. -/

open Sys2Proof Sys2Proof.Machine

/-! ### The framer (40_framer.md) -/

/-- R109: the four packing laws. -/
def Obligations.FramePackingLaws : Prop :=
  (∀ (dst src flags : Byte) (data : List Byte), data.length ≤ maxData →
    ∃ f, frameEnc dst src flags data = some f ∧
      frameDec f = .ok { address := dst, phySrc := src, flags := flags, data := data } ∧
      frameSize f = data.length + 4 ∧ frameWf f) ∧
  ∀ f : List Byte, frameWf f →
    frameEnc (f.getD 1 0) (f.getD 2 0) (f.getD 3 0) ((f.take ((f.headD 0).toNat + 1)).drop 4) = some f

/-- R100: FRAME_ENC's bytes, and its refusal of a payload above MAX_DATA. -/
def Obligations.FrameEncoderPacksOrRefuses : Prop :=
  ∀ (dst src flags : Byte) (data : List Byte),
    (251 < data.length → frameEnc dst src flags data = none) ∧
    (data.length ≤ 251 →
      frameEnc dst src flags data = some ([u8 (3 + data.length), dst, src, flags] ++ data) ∧
      (u8 (3 + data.length)).toNat = 3 + data.length)

/-- R101: FRAME_SIZE is a natural number in 1..256, and it is legal exactly for F[0] at most 254. -/
def Obligations.FrameSizeNeverWraps : Prop :=
  ∀ (l : Byte) (rest : List Byte),
    frameSize (l :: rest) = l.toNat + 1 ∧ 1 ≤ frameSize (l :: rest) ∧ frameSize (l :: rest) ≤ 256 ∧
    (frameSize (l :: rest) ≤ 255 ↔ l.toNat ≤ 254)

/-- R102: FRAME_DEC's six verdicts, in the rule's order. -/
def Obligations.FrameDecoderVerdicts : Prop :=
  frameDec [] = .empty ∧
  ∀ (l : Byte) (rest : List Byte),
    (l.toNat = 255 → frameDec (l :: rest) = .oversize) ∧
    (l.toNat < 3 → frameDec (l :: rest) = .shortHeader l.toNat) ∧
    (3 ≤ l.toNat → l.toNat < 255 →
      (rest.length < l.toNat → frameDec (l :: rest) = .truncated l.toNat (rest.length + 1)) ∧
      (∀ (a p f : Byte) (data extra : List Byte), rest = a :: p :: f :: (data ++ extra) →
        data.length + 3 = l.toNat →
        frameDec (l :: rest) =
          if extra = [] then .ok { address := a, phySrc := p, flags := f, data := data }
          else .trailing { address := a, phySrc := p, flags := f, data := data } extra))

/-- R103: WF(F) holds exactly where FRAME_DEC answers OK. -/
def Obligations.WellFormedFramesDecodeOk : Prop :=
  ∀ f : List Byte,
    (frameWf f ↔ f.length = (f.headD 0).toNat + 1 ∧ 3 ≤ (f.headD 0).toNat ∧ (f.headD 0).toNat ≤ 254) ∧
    (frameWf f ↔ ∃ fields, frameDec f = .ok fields)

/-- R105, R106: LQI_SPLIT is the top bit and the low seven; RSSI_VAL is the signed reading. -/
def Obligations.ReceiveMetadataReadings : Prop :=
  ∀ raw : Byte,
    (lqiSplit raw).1 = decide (128 ≤ raw.toNat) ∧
    (lqiSplit raw).2.toNat = raw.toNat % 128 ∧
    rssiVal raw = (if raw.toNat < 128 then (raw.toNat : Int) else (raw.toNat : Int) - 256)

/-! ### Encodings (30_encoding.md) -/

/-- No bit of an encoding is dropped: an encoded well-formed instruction decodes to itself, whatever
follows it, in each of the three formats (R77 to R81, R89, R90). -/
def Obligations.DecodeEncodeRoundTrip : Prop :=
  ∀ (i : Instr) (rest : List Byte), i.wf = true →
    decode i.format (encode i ++ rest) = .ok (i, rest)

/-- Each word has one meaning: what a decoder reads encodes back to the bytes it read, is well-formed,
and belongs to the decoder's format. -/
def Obligations.EncodeDecodeRoundTrip : Prop :=
  ∀ (f : Format) (bytes rest : List Byte) (i : Instr), decode f bytes = .ok (i, rest) →
    i.format = f ∧ i.wf = true ∧ encode i ++ rest = bytes

/-- Every command byte is some row's: the command decoder rejects nothing but a command that is not yet
whole, and 257 bytes hold a whole command (R78, R80, R85). -/
def Obligations.CommandDecoderOnlyWaits : Prop :=
  ∀ bytes : List Byte,
    (∀ e, decodeCmd bytes = .error e → e = .incomplete) ∧
    (257 ≤ bytes.length → ∃ i rest, decodeCmd bytes = .ok (i, rest))

/-- R80: the total length of each command; a SEND whose F[0] is 255 has 257 bytes, the port accepts it,
and SEND then refuses it on size. -/
def Obligations.CommandLengths : Prop :=
  (encode .init).length = 1 ∧
  (∀ f : List Byte, frameOperandWf f = true → (encode (.send f)).length = 2 + (f.headD 0).toNat) ∧
  (∀ m : Byte, (encode (.receive m)).length = 2) ∧
  (∀ (opt : BitVec 4) (m : Byte), (encode (getRow opt m)).length = 2) ∧
  (∀ (opt : BitVec 4) (v : List Byte), (encode (setRow opt v)).length = 2 + v.length) ∧
  (∀ i : Instr, i.illegal = true → (encode i).length = 1) ∧
  (∀ f rest : List Byte, f.headD 0 = 255 → f.length = 256 →
    (encode (.send f)).length = 257 ∧ decodeCmd (0x20 :: (f ++ rest)) = .ok (.send f, rest) ∧
    ∀ s : State, s.Ready → s.Eligible →
      ∃ t, exec (.send f) s = .next t ∧ t.events = s.events ++ [.done errSize none])

/-- Words written out from the tables of R78, R79, R85, R89 and R90. -/
def Obligations.WrittenOutWordsDecode : Prop :=
  decodeCmd [0x10] = .ok (.init, []) ∧
  decodeCmd [0x20, 0x03, 0x09, 0x00, 0x20, 0x42] = .ok (.send [0x03, 0x09, 0x00, 0x20], [0x42]) ∧
  decodeCmd [0x45, 0x08] = .ok (.getIid 0x08, []) ∧
  decodeCmd [0x52, 0x01, 0xC8] = .ok (.setChannel [0xC8], []) ∧
  decodeCmd [0x21, 0x03] = .ok (.illegalSend1, [0x03]) ∧
  decodeKey 0x6 = .dispatchRxComplete ∧
  decodeRecord [0x60, 0xE0, 0x02, 0x11, 0x22] = .ok (.recBwr 0xE0 [0x11, 0x22], [])

/-- R89: a serialised bus trace reads back, where every burst fits its count byte. -/
def Obligations.TraceSerialisationRoundTrip : Prop :=
  ∀ t : List BusRecord, (∀ r ∈ t, (recordRow r).wf = true) → readTrace t.length (traceBytes t) = some t

/-- R93: the pseudo-instructions' expansions; R92: SEND's byte count. -/
def Obligations.PseudoInstructionsExpand : Prop :=
  (∀ (dst flags : Byte) (data : List Byte),
    (data.length ≤ 251 →
      assemble (.sendTo dst flags data) = assemble (.send (u8 (3 + data.length) :: dst :: 0x00 :: flags :: data)) ∧
      assemble (.sendTo dst flags data) = some (0x20 :: u8 (3 + data.length) :: dst :: 0x00 :: flags :: data)) ∧
    (251 < data.length → assemble (.sendTo dst flags data) = none)) ∧
  (∀ v : Byte, assemble (.setChan v) = some [0x52, 0x01, v] ∧ assemble (.setAddr v) = some [0x53, 0x01, v]) ∧
  assemble .getIid = some [0x45, 0x08] ∧
  (∀ (b0 : Byte) (bs : List Byte), assemble (.send (b0 :: bs)) = none ↔ bs.length ≠ b0.toNat)

/-- R94: the directives. `@PIN` drives the pin, with the edge detector; `@DISPATCH` runs a pending dispatch at that
point, where UPPER's not pulling is the model's choice (log 25); `@XCVR r = v, ...` gives the next reads of
register r those answers in order, and leaves every other register's answers as they were. -/
def Obligations.DirectivesDriveTheirAgents : Prop :=
  (∀ (s : State) (level : Bool), s.Legal → s.sched = [] →
    ∃ t, loadLine (.pin level) s = some t ∧ step t = .next (pinChange level s)) ∧
  (∀ s : State, s.sched = [] → canDispatch s = true →
    ∃ t, loadLine .dispatch s = some t ∧
      step t = exec (decodeKey (dispatchKey s)) { s with upperPull := false }) ∧
  ∀ (s : State) (r : RegName) (vs : List Byte), s.Legal → s.sched = [] →
    (∀ a ∈ s.answers, a.reg ≠ regId s.params r) →
    ∃ t u, loadLine (.xcvr (vs.map fun v => (r, .byte v))) s = some t ∧ step t = .next u ∧
      (nextAnswers (regId s.params r) vs.length u).1 = vs ∧
      ∀ (q : Byte) (n : Nat), q ≠ regId s.params r → (nextAnswers q n u).1 = (nextAnswers q n s).1

/-! ### Reset (70_reset_and_hazards.md) -/

/-- R209: every field with a value after reset, for every parameter set and every level of the pin; and
`State.reset` is that state. -/
def Obligations.ResetValues : Prop :=
  (∀ (p : Params) (pin : Bool), ∃ s, s = State.initial p pin ∧
    s.state = RadioState.unknown.code ∧ s.nodeAddr = p.addrDefault ∧ s.channel = p.chanDefault ∧
    s.irqEn = false ∧ s.irqPend = false ∧ s.pinPrev = pin ∧ s.evtPin = pin ∧ s.txFault = false ∧
    s.txLen = 0 ∧ s.rxLen = 0 ∧ s.rxRssi = 0 ∧ s.rxLqi = 0 ∧
    s.statRx = 0 ∧ s.statCrcFail = 0 ∧ s.statRxWhileTx = 0 ∧ s.statTx = 0 ∧
    s.pos.op = .none ∧ s.busTrace = [] ∧ s.events = []) ∧
  ∃ p pin, State.reset = State.initial p pin ∧ p.wf

/-- R209, R211, R212: reset at any step, in any of the six states, drops the operation in progress with no
Done, and puts every field at its value of R209; the pin's level is the only input it depends on; the
transceiver is not reset. That the unspecified buffers take the bytes of the reset move is the model's choice
(log 5), and so is that XCVR's coming answers and the draws stay (log 20). -/
def Obligations.ResetDropsOperation : Prop :=
  ∀ (s : State) (tx rx : List Byte) (rest : List Move), s.Legal → s.sched = .reset tx rx :: rest →
    ∃ t, step s = .next t ∧ t.pos = .none ∧ t.events = [] ∧ t.busTrace = [] ∧
      t.state = RadioState.unknown.code ∧ t.nodeAddr = s.params.addrDefault ∧
      t.channel = s.params.chanDefault ∧ t.irqEn = false ∧ t.irqPend = false ∧ t.pinPrev = s.evtPin ∧
      t.evtPin = s.evtPin ∧ t.txFault = false ∧ t.txLen = 0 ∧ t.rxLen = 0 ∧ t.rxRssi = 0 ∧ t.rxLqi = 0 ∧
      t.statRx = 0 ∧ t.statCrcFail = 0 ∧ t.statRxWhileTx = 0 ∧ t.statTx = 0 ∧ t.params = s.params ∧
      t.answers = s.answers ∧ t.draws = s.draws ∧
      (∀ i < 255, t.txBuf.read i = tx.getD i 0 ∧ t.rxBuf.read i = rx.getD i 0)

/-! ### Edges and dispatches (42_fsm_isr.md) -/

/-- R133: the edge detector's step, both edges sensed (D9); R134: what a masked edge does. Where EDGE has seen
every change of the pin so far, a level the pin already has is no edge. -/
def Obligations.EdgeDetectorLatches : Prop :=
  ∀ (s : State) (level : Bool) (rest : List Move), s.Legal → s.sched = .pin level :: rest →
    step s = .next { s with
      sched := rest
      evtPin := level
      pinPrev := level
      irqPend := s.irqPend || (level != s.pinPrev && (s.irqEn || s.params.latchWhileMasked)) } ∧
    (s.pinPrev = s.evtPin → level = s.evtPin → step s = .next { s with sched := rest })

/-- R135: any number of edges before a dispatch leave the one latch set, and the pin at its last level. -/
def Obligations.EdgesCoalesce : Prop :=
  ∀ (s : State) (levels : List Bool) (rest : List Move), s.Legal → s.irqEn = true →
    s.sched = levels.map Move.pin ++ rest →
    ∃ t, Host.Core.run Sys2Proof.core levels.length s = .next t ∧
      t = { s with
        sched := rest
        evtPin := levels.getLastD s.evtPin
        pinPrev := levels.getLastD s.pinPrev
        irqPend := s.irqPend || levels.any (fun b => b != s.pinPrev) }

/-- R138, R139, R141 to R144: what each dispatch row but the Receive Path's does, and nothing else. -/
def Obligations.DispatchRowsAct : Prop :=
  ∀ s : State, s.irqEn = true → s.irqPend = true →
    (s.state = RadioState.receiving.code → s.evtPin = true →
      exec .dispatchRxStart s = .next { s with irqPend := false, state := RadioState.receivingBusy.code }) ∧
    (s.state = RadioState.receiving.code → s.evtPin = false →
      exec .dispatchRxRearm s =
        .next { s with irqPend := false, busTrace := s.busTrace ++ [.st s.params.strobeRx] }) ∧
    (s.state = RadioState.receivingBusy.code → s.evtPin = true →
      exec .dispatchMissedEdge s =
        .next { s with irqPend := false, events := s.events ++ [.log .missedEdge] }) ∧
    (s.state = RadioState.transmitting.code → s.evtPin = false →
      exec .dispatchTxDone s =
        .next { s with
          irqPend := false
          state := RadioState.receiving.code
          busTrace := s.busTrace ++ [.st s.params.strobeRx] }) ∧
    (s.state = RadioState.transmitting.code → s.evtPin = true →
      exec .dispatchTxBusy s = .next { s with irqPend := false }) ∧
    (s.state = RadioState.unknown.code ∨ s.state = RadioState.idle.code →
      exec (.dispatchUnhandled ((dispatchKey s).setWidth 2)) s =
        .next { s with irqPend := false, events := s.events ++ [.log .unhandled] }) ∧
    (s.state = RadioState.powerDown.code →
      exec (.dispatchUnhandledPowerDown (BitVec.ofBool s.evtPin)) s =
        .next { s with irqPend := false, events := s.events ++ [.log .unhandled] })

/-- R145, with R35 and R194 (a): where `state` holds 6 or 7 the machine stops with the fault INVALID_STATE and
takes no row: at every step, whatever the move, at every command and at every dispatch row. The six defined
states are covered: there a dispatch takes its row, and leaves one of the six. -/
def Obligations.ReservedStateFaults : Prop :=
  (∀ s : State, 6 ≤ s.state.toNat → step s = .fault .invalidState) ∧
  (∀ (i : Instr) (s : State), 6 ≤ s.state.toNat → i.format = .cmd ∨ i.format = .key →
    exec i s = .fault .invalidState) ∧
  ∀ s : State, s.Legal → dispatchReady s = true → ∃ t, exec (decodeKey (dispatchKey s)) s = .next t ∧ t.Legal

/-- R60, R136, R137: the interleaving points are op = NONE and the yields the operations' rules write; at one,
enabled and pending, the dispatch runs the row of its key {state, level}, in ISR's move, and where no move is
left and TASK waits or has stopped; elsewhere the schedule's dispatch does nothing (log 9, log 19). -/
def Obligations.DispatchRunsRowOfKey : Prop :=
  (∀ p : Pos, p.isYield = true ↔
    p = .none ∨ p = .init .i7done ∨
    p = .send .s1check ∨ p = .send .s1sleep ∨ p = .send .s2 ∨ p = .send .s3mask ∨ p = .send .t5done ∨
    p = .receive .v1 ∨ p = .receive .v2 ∨ (∃ opt, p = .get opt) ∨ (∃ opt, p = .set (.e1 opt)) ∨
    p = .set .c2write) ∧
  (∀ s : State, (dispatchKey s).toNat = 2 * s.state.toNat + s.evtPin.toNat) ∧
  (∀ (s : State) (pull : Bool) (rest : List Move), s.sched = .dispatch pull :: rest →
    (s.pos.isYield = true → s.irqEn = true → s.irqPend = true →
      step s = exec (decodeKey (dispatchKey s)) { s with sched := rest, upperPull := pull }) ∧
    (s.Legal → s.pos.isYield = false ∨ s.irqEn = false ∨ s.irqPend = false →
      step s = .next { s with sched := rest, upperPull := pull })) ∧
  (∀ (s : State) (e : DecodeError), s.sched = [] → s.pos = .none → decodeCmd s.port = .error e →
    s.irqEn = true → s.irqPend = true → step s = exec (decodeKey (dispatchKey s)) s) ∧
  ∀ s : State, s.sched = [.stop] → s.pos.isYield = true →
    (s.irqEn = true → s.irqPend = true → step s = exec (decodeKey (dispatchKey s)) s) ∧
    (s.Legal → s.irqEn = false ∨ s.irqPend = false → step s = .next s)

/-- R147, R199, R200: a dispatch changes neither `irq_en` nor the task's sequencer, and the latch is clear
after it; it leaves every register and buffer alone that only the task's commands write. -/
def Obligations.DispatchLeavesTaskAlone : Prop :=
  ∀ s t : State, s.IsrTurn → step s = .next t →
    t.irqEn = s.irqEn ∧ t.pos = s.pos ∧ t.pollK = s.pollK ∧ t.retry = s.retry ∧ t.hostIn = s.hostIn ∧
    t.stamp = s.stamp ∧ t.copyN = s.copyN ∧ t.copyRssi = s.copyRssi ∧ t.copyLqi = s.copyLqi ∧
    t.copyIdx = s.copyIdx ∧ t.nodeAddr = s.nodeAddr ∧ t.channel = s.channel ∧ t.txFault = s.txFault ∧
    t.txBuf = s.txBuf ∧ t.txLen = s.txLen ∧ t.statTx = s.statTx ∧ t.statRxWhileTx = s.statRxWhileTx ∧
    t.hostOut = s.hostOut ∧ t.port = s.port ∧ t.evtPin = s.evtPin ∧ t.pinPrev = s.pinPrev ∧
    t.params = s.params ∧ t.sched = (if s.sched = [.stop] then s.sched else s.sched.tail) ∧ (canDispatch s = true → t.irqPend = false)

/-- R149: the only changes of `state` by a dispatch. -/
def Obligations.DispatchStateChanges : Prop :=
  ∀ s t : State, s.IsrTurn → step s = .next t →
    t.state = s.state ∨
    (s.state = RadioState.receiving.code ∧ s.evtPin = true ∧ t.state = RadioState.receivingBusy.code) ∨
    (s.state = RadioState.receivingBusy.code ∧ s.evtPin = false ∧ t.state = RadioState.receiving.code) ∨
    (s.state = RadioState.transmitting.code ∧ s.evtPin = false ∧ t.state = RadioState.receiving.code)

/-- A dispatch row is run only where its dispatch can be taken, and DISPATCH_INVALID, as an instruction, is its
fault in every state: the model's choice (log 9), from R136, R137, R145. -/
def Obligations.DispatchRefusedWhenNotTaken : Prop :=
  (∀ (i : Instr) (s : State), i.format = .key → (∀ low, i ≠ .dispatchInvalid low) → s.Legal →
    s.irqEn = false ∨ s.irqPend = false ∨ encode i ≠ [(dispatchKey s).setWidth 8] →
    exec i s = .refused .dispatchNotTaken) ∧
  ∀ (low : BitVec 2) (s : State), exec (.dispatchInvalid low) s = .fault .invalidState

/-! ### The Receive Path (43_receive_path.md) -/

/-- R140, R154 to R160: a clean status and a passed check deliver the frame and its metadata; UPPER's pull
(R184) sees the frame just delivered. -/
def Obligations.DeliveredReception : Prop :=
  ∀ (s : State) (n rssi raw : Byte) (b : List Byte) (a₁ a₂ a₃ rest : List Answer),
    s.irqEn = true → s.irqPend = true →
    s.state = RadioState.receivingBusy.code → s.evtPin = false → s.rxBuf.wf →
    takeAnswer s.params.regRxBytes s.answers = some (n, a₁) →
    takeAnswer s.params.regRxStatus a₁ = some (s.params.rxStatusClean, a₂) →
    takeAnswer s.params.regRssi a₂ = some (rssi, a₃) →
    takeAnswer s.params.regLqi a₃ = some (raw, b.map (Answer.mk s.params.regRxFifo) ++ rest) →
    b.length = n.toNat → 128 ≤ raw.toNat →
    exec .dispatchRxComplete s = .next { s with
      irqPend := false
      state := RadioState.receiving.code
      answers := rest
      rxBuf := s.rxBuf.writeBytes 0 b
      rxLen := n
      rxRssi := rssi
      rxLqi := raw.setWidth 7
      statRx := s.statRx + 1
      busTrace := s.busTrace ++ [.rd s.params.regRxBytes n,
        .rd s.params.regRxStatus s.params.rxStatusClean, .rd s.params.regRssi rssi,
        .rd s.params.regLqi raw, .brd s.params.regRxFifo b, .st s.params.strobeRx]
      events := s.events ++ [.frameAvailable]
      upperCopies := s.upperCopies ++
        (if s.upperPull then [{ len := n, bytes := b, rssi := rssi, lqi := raw.setWidth 7 }] else []) }

/-- The ways a reception fails. R140, R158: a failed check counts a CRC failure, delivers nothing, reads no
payload. R140, R156: a status that is not clean aborts with no further bus transaction, and nothing is
counted. R153: outside ReceivingBusy the Receive Path returns ERR_STATE, with no bus transaction and no field
written. -/
def Obligations.FailedReceptions : Prop :=
  (∀ (s : State) (n rssi raw : Byte) (a₁ a₂ a₃ rest : List Answer), s.irqEn = true → s.irqPend = true →
    s.state = RadioState.receivingBusy.code → s.evtPin = false →
    takeAnswer s.params.regRxBytes s.answers = some (n, a₁) →
    takeAnswer s.params.regRxStatus a₁ = some (s.params.rxStatusClean, a₂) →
    takeAnswer s.params.regRssi a₂ = some (rssi, a₃) → takeAnswer s.params.regLqi a₃ = some (raw, rest) →
    raw.toNat < 128 →
    exec .dispatchRxComplete s = .next { s with
      irqPend := false
      state := RadioState.receiving.code
      answers := rest
      statCrcFail := s.statCrcFail + 1
      busTrace := s.busTrace ++ [.rd s.params.regRxBytes n,
        .rd s.params.regRxStatus s.params.rxStatusClean, .rd s.params.regRssi rssi,
        .rd s.params.regLqi raw, .st s.params.strobeRx]
      events := s.events ++ [.log .rxRejected] }) ∧
  (∀ (s : State) (n st : Byte) (a₁ rest : List Answer), s.irqEn = true → s.irqPend = true →
    s.state = RadioState.receivingBusy.code → s.evtPin = false →
    takeAnswer s.params.regRxBytes s.answers = some (n, a₁) →
    takeAnswer s.params.regRxStatus a₁ = some (st, rest) → st ≠ s.params.rxStatusClean →
    exec .dispatchRxComplete s = .next { s with
      irqPend := false
      state := RadioState.receiving.code
      answers := rest
      busTrace := s.busTrace ++ [.rd s.params.regRxBytes n, .rd s.params.regRxStatus st,
        .st s.params.strobeRx]
      events := s.events ++ [.log .rxAbortedStatus] }) ∧
  ∀ s : State, s.state ≠ RadioState.receivingBusy.code → rxPath s = (.errState, s)

/-- R161: whatever the transceiver answers (a free value included), a reception ends in one of three
outcomes, each with its bus records, its fields and its event; the block then listens again. -/
def Obligations.ReceptionHasThreeOutcomes : Prop :=
  ∀ s : State, s.irqEn = true → s.irqPend = true → s.state = RadioState.receivingBusy.code → s.evtPin = false →
    ∃ t, exec .dispatchRxComplete s = .next t ∧ t.state = RadioState.receiving.code ∧ t.irqPend = false ∧
      t.irqEn = true ∧ t.txBuf = s.txBuf ∧ t.txLen = s.txLen ∧ t.statTx = s.statTx ∧ t.hostOut = s.hostOut ∧
      ((∃ n rssi raw b, b.length = n.toNat ∧ 128 ≤ raw.toNat ∧
          t.busTrace = s.busTrace ++ [.rd s.params.regRxBytes n,
            .rd s.params.regRxStatus s.params.rxStatusClean, .rd s.params.regRssi rssi,
            .rd s.params.regLqi raw, .brd s.params.regRxFifo b, .st s.params.strobeRx] ∧
          t.events = s.events ++ [.frameAvailable] ∧ t.statRx = s.statRx + 1 ∧ t.statCrcFail = s.statCrcFail ∧
          t.rxLen = n ∧ t.rxRssi = rssi ∧ t.rxLqi = raw.setWidth 7 ∧
          (s.rxBuf.wf → ∀ i, t.rxBuf.read i = if i < n.toNat then b.getD i 0 else s.rxBuf.read i)) ∨
       (∃ n rssi raw, raw.toNat < 128 ∧
          t.busTrace = s.busTrace ++ [.rd s.params.regRxBytes n,
            .rd s.params.regRxStatus s.params.rxStatusClean, .rd s.params.regRssi rssi,
            .rd s.params.regLqi raw, .st s.params.strobeRx] ∧
          t.events = s.events ++ [.log .rxRejected] ∧ t.statCrcFail = s.statCrcFail + 1 ∧ t.statRx = s.statRx ∧
          t.rxBuf = s.rxBuf ∧ t.rxLen = s.rxLen ∧ t.rxRssi = s.rxRssi ∧ t.rxLqi = s.rxLqi) ∨
       (∃ n st, st ≠ s.params.rxStatusClean ∧
          t.busTrace = s.busTrace ++ [.rd s.params.regRxBytes n, .rd s.params.regRxStatus st,
            .st s.params.strobeRx] ∧
          t.events = s.events ++ [.log .rxAbortedStatus] ∧ t.statCrcFail = s.statCrcFail ∧ t.statRx = s.statRx ∧
          t.rxBuf = s.rxBuf ∧ t.rxLen = s.rxLen ∧ t.rxRssi = s.rxRssi ∧ t.rxLqi = s.rxLqi))

/-! ### SEND and the Transmit Path (41_send_tx.md) -/

/-- R114 to R123, R126: a clean first write. The frame on the bus is F with byte 2 replaced by the node
address. -/
def Obligations.SendCommitsOnFirstWrite : Prop :=
  ∀ (s : State) (f : List Byte) (rest : List Answer), s.Ready → s.Eligible → s.txBuf.wf →
    frameOperandWf f = true → f.length ≤ 255 →
    takeAnswer s.params.regTxBytes s.answers = some (u8 f.length, rest) →
    exec (.send f) s = .next { s with
      state := RadioState.transmitting.code
      irqEn := true
      txBuf := stampBuf (s.txBuf.writeBytes 0 f) s.nodeAddr
      txLen := u8 f.length
      statTx := s.statTx + 1
      pollK := 0
      retry := false
      hostIn := f
      stamp := s.nodeAddr
      answers := rest
      busTrace := s.busTrace ++ [.st s.params.strobeIdle, .st s.params.strobeFlushTx,
        .bwr s.params.regTxFifo (f.set 2 s.nodeAddr), .rd s.params.regTxBytes (u8 f.length),
        .st s.params.strobeTx]
      events := s.events ++ [.done (BitVec.ofNat 16 f.length) none] }

/-- R122, R126, R130: a first write that mismatches and a retry that matches: two burst writes, a second
flush, and success. -/
def Obligations.SendRecoversOnRetry : Prop :=
  ∀ (s : State) (f : List Byte) (c : Byte) (a₁ rest : List Answer), s.Ready → s.Eligible → s.txBuf.wf →
    frameOperandWf f = true → f.length ≤ 255 → c ≠ u8 f.length →
    takeAnswer s.params.regTxBytes s.answers = some (c, a₁) →
    takeAnswer s.params.regTxBytes a₁ = some (u8 f.length, rest) →
    exec (.send f) s = .next { s with
      state := RadioState.transmitting.code
      irqEn := true
      txBuf := stampBuf (s.txBuf.writeBytes 0 f) s.nodeAddr
      txLen := u8 f.length
      statTx := s.statTx + 1
      pollK := 0
      retry := true
      hostIn := f
      stamp := s.nodeAddr
      answers := rest
      busTrace := s.busTrace ++ [.st s.params.strobeIdle, .st s.params.strobeFlushTx,
        .bwr s.params.regTxFifo (f.set 2 s.nodeAddr), .rd s.params.regTxBytes c,
        .st s.params.strobeFlushTx, .bwr s.params.regTxFifo (f.set 2 s.nodeAddr),
        .rd s.params.regTxBytes (u8 f.length), .st s.params.strobeTx]
      events := s.events ++ [.done (BitVec.ofNat 16 f.length) none] }

/-- R124, R126: two mismatches: ERR_TXFAIL, `tx_fault` set, the interrupt masked, the state
Transmitting, the channel not written, no STROBE_TX. -/
def Obligations.SendFailsAfterRetry : Prop :=
  ∀ (s : State) (f : List Byte) (c d : Byte) (a₁ rest : List Answer), s.Ready → s.Eligible → s.txBuf.wf →
    frameOperandWf f = true → f.length ≤ 255 → c ≠ u8 f.length → d ≠ u8 f.length →
    takeAnswer s.params.regTxBytes s.answers = some (c, a₁) → takeAnswer s.params.regTxBytes a₁ = some (d, rest) →
    exec (.send f) s = .next { s with
      state := RadioState.transmitting.code
      irqEn := false
      txFault := true
      txBuf := stampBuf (s.txBuf.writeBytes 0 f) s.nodeAddr
      txLen := u8 f.length
      pollK := 0
      retry := true
      hostIn := f
      stamp := s.nodeAddr
      answers := rest
      busTrace := s.busTrace ++ [.st s.params.strobeIdle, .st s.params.strobeFlushTx,
        .bwr s.params.regTxFifo (f.set 2 s.nodeAddr), .rd s.params.regTxBytes c,
        .st s.params.strobeFlushTx, .bwr s.params.regTxFifo (f.set 2 s.nodeAddr),
        .rd s.params.regTxBytes d]
      events := s.events ++ [.done errTxFail none] }

/-- R114: a state that stays ineligible gives ERR_TIMEOUT after exactly POLL_MAX sleeps, with no bus
transaction and no context field written. -/
def Obligations.SendTimesOut : Prop :=
  ∀ (s : State) (f : List Byte), s.Ready → ¬ s.Eligible →
    exec (.send f) s = .next { s with
      pollK := 100
      retry := false
      hostIn := f
      events := s.events ++ [.done errTimeout none] }

/-- R111, R115: a payload above 251 bytes has no encoding, and a raw frame with F[0] = 255 is refused with
ERR_SIZE before any bus transaction. -/
def Obligations.SendRefusesOversize : Prop :=
  (∀ (dst src flags : Byte) (data : List Byte), 251 < data.length → frameEnc dst src flags data = none) ∧
  ∀ (s : State) (f : List Byte), s.Ready → s.Eligible → f.headD 0 = 255 →
    exec (.send f) s = .next { s with
      pollK := 0
      retry := false
      hostIn := f
      events := s.events ++ [.done errSize none] }

/-- R125: SEND returns exactly one of four results, and when, whatever the transceiver answers (a free
value included). -/
def Obligations.SendReturnsOneOfFour : Prop :=
  ∀ (s : State) (f : List Byte), s.Ready → frameOperandWf f = true →
    ∃ t r, exec (.send f) s = .next t ∧ t.events = s.events ++ [.done r none] ∧ t.pos = .none ∧
      ((¬ s.Eligible ∧ r = errTimeout ∧ t.pollK = pollMax ∧ t.busTrace = s.busTrace) ∨
       (s.Eligible ∧ f.headD 0 = 255 ∧ r = errSize ∧ t.busTrace = s.busTrace) ∨
       (s.Eligible ∧ f.headD 0 ≠ 255 ∧ r = BitVec.ofNat 16 ((f.headD 0).toNat + 1) ∧
          t.statTx = s.statTx + 1 ∧ t.irqEn = true ∧ t.state = RadioState.transmitting.code ∧
          t.txFault = s.txFault) ∨
       (s.Eligible ∧ f.headD 0 ≠ 255 ∧ r = errTxFail ∧ t.statTx = s.statTx ∧ t.irqEn = false ∧
          t.state = RadioState.transmitting.code ∧ t.txFault = true ∧ t.retry = true))

/-- R118: after a SEND that passes its size check, `tx_buf` holds F with byte 2 replaced by the node
address; every other byte but byte 2, and every other space, is as before; HOSTIN is F as given. -/
def Obligations.TxBufHoldsStampedFrame : Prop :=
  ∀ (s t : State) (f : List Byte), s.Ready → s.Eligible → s.txBuf.wf → frameOperandWf f = true →
    f.length ≤ 255 → exec (.send f) s = .next t →
    (∀ i < f.length, t.txBuf.read i = (f.set 2 s.nodeAddr).getD i 0) ∧
    t.txBuf.read 2 = s.nodeAddr ∧
    (∀ i, f.length ≤ i → i ≠ 2 → t.txBuf.read i = s.txBuf.read i) ∧
    t.rxBuf = s.rxBuf ∧ t.hostOut = s.hostOut ∧ t.hostIn = f ∧ t.txLen = u8 f.length

/-- R215, hazard H1: a frame that begins to arrive between SEND's check and its mask, at Y2 or at Y3, is
abandoned: the state is forced to Transmitting, no Receive Path runs, no counter of receptions changes. -/
def Obligations.SendRaceAbandonsReception : Prop :=
  ∀ (s : State) (pull : Bool), s.pos = .send .s2 ∨ s.pos = .send .s3mask →
    s.state = RadioState.receiving.code → s.irqEn = true →
    s.irqPend = true → s.evtPin = true → s.size ≤ 255 → s.sched = [.dispatch pull, .run] →
    ∃ t u r, step s = .next t ∧ t.state = RadioState.receivingBusy.code ∧ t.pos = s.pos ∧
      step t = .next u ∧ u.state = RadioState.transmitting.code ∧ u.pos = .none ∧
      u.statRx = s.statRx ∧ u.statCrcFail = s.statCrcFail ∧ u.statRxWhileTx = s.statRxWhileTx ∧
      u.rxBuf = s.rxBuf ∧ u.events = s.events ++ [.done r none]

/-- R217, hazard H3: a dispatch left pending when SEND commits can find the pin still low: it re-arms
receive and leaves Transmitting while the transmission starts. -/
def Obligations.StaleDispatchAfterCommit : Prop :=
  ∀ (s : State) (pull : Bool) (rest : List Move), s.pos = .send .t5done →
    s.state = RadioState.transmitting.code → s.irqEn = true → s.irqPend = true → s.evtPin = false →
    s.sched = .dispatch pull :: rest →
    step s = .next { s with
      sched := rest
      upperPull := pull
      irqPend := false
      state := RadioState.receiving.code
      busTrace := s.busTrace ++ [.st s.params.strobeRx] }

/-- R26: only INIT clears `tx_fault` (and reset, R209). -/
def Obligations.OnlyInitOrResetClearsTxFault : Prop :=
  ∀ s t : State, step s = .next t → s.txFault = true → t.txFault = false →
    s.pos.op = .init ∨ (s.pos = .none ∧ ∃ rest, portCommand s = some (.init, rest)) ∨
    ∃ tx rx rest, s.sched = .reset tx rx :: rest

/-! ### INIT, RECEIVE, GET, SET and the port (44_adapter.md) -/

/-- R166: INIT, in every one of the six states. -/
def Obligations.InitBringsUpBlock : Prop :=
  ∀ s : State, s.Ready →
    exec .init s = .next { s with
      irqEn := true
      irqPend := false
      txFault := false
      state := if s.params.initArmsRx then RadioState.receiving.code else RadioState.idle.code
      hostIn := []
      busTrace := s.busTrace ++ ([.st s.params.strobeIdle, .wr s.params.regChannel s.channel] ++
        (if s.params.initArmsRx then [.st s.params.strobeRx] else []))
      events := s.events ++ [.done 0 none] }

/-- R167: RECEIVE copies the buffered frame and puts out its metadata, or answers ERR_NOSPACE with
HOSTOUT untouched; it does not consume the frame. -/
def Obligations.ReceiveCopiesFrame : Prop :=
  ∀ (s : State) (m : Byte), s.Ready →
    (s.rxLen.toNat ≤ m.toNat →
      exec (.receive m) s = .next { s with
        hostIn := [m]
        copyN := s.rxLen
        copyRssi := s.rxRssi
        copyLqi := s.rxLqi
        copyIdx := s.rxLen.toNat
        hostOut := s.hostOut.writeBytes 0 (s.rxBuf.readBytes 0 s.rxLen.toNat)
        events := s.events ++
          [.done (BitVec.ofNat 16 s.rxLen.toNat) (some { rssi := s.rxRssi, lqi := s.rxLqi })] }) ∧
    (m.toNat < s.rxLen.toNat →
      exec (.receive m) s = .next { s with
        hostIn := [m]
        copyN := s.rxLen
        copyRssi := s.rxRssi
        copyLqi := s.rxLqi
        copyIdx := 0
        events := s.events ++ [.done errNoSpace none] })

/-- R168 case 3, R216: a delivery at a yield of RECEIVE's copy tears it: the bytes before the yield are
those already copied, the bytes after it come from the buffer as the delivery left it, under the old
count and the old metadata. -/
def Obligations.TornReceive : Prop :=
  ∀ (s : State) (pull : Bool) (n rssi raw : Byte) (b : List Byte) (a₁ a₂ a₃ rest : List Answer),
    s.pos = .receive .v2 → s.copyIdx < s.copyN.toNat → s.rxBuf.wf → s.hostOut.wf → s.irqEn = true → s.irqPend = true →
    s.state = RadioState.receivingBusy.code → s.evtPin = false →
    takeAnswer s.params.regRxBytes s.answers = some (n, a₁) →
    takeAnswer s.params.regRxStatus a₁ = some (s.params.rxStatusClean, a₂) →
    takeAnswer s.params.regRssi a₂ = some (rssi, a₃) →
    takeAnswer s.params.regLqi a₃ = some (raw, b.map (Answer.mk s.params.regRxFifo) ++ rest) →
    b.length = n.toNat → 128 ≤ raw.toNat → s.sched = [.dispatch pull, .run] →
    ∃ t u, step s = .next t ∧ t.rxLen = n ∧ step t = .next u ∧ u.pos = .none ∧
      (∀ j < s.copyIdx, u.hostOut.read j = s.hostOut.read j) ∧
      (∀ j, s.copyIdx ≤ j → j < s.copyN.toNat →
        u.hostOut.read j = if j < n.toNat then b.getD j 0 else s.rxBuf.read j) ∧
      (∀ j, s.copyN.toNat ≤ j → u.hostOut.read j = s.hostOut.read j) ∧
      u.events = s.events ++ [.frameAvailable,
        .done (BitVec.ofNat 16 s.copyN.toNat) (some { rssi := s.copyRssi, lqi := s.copyLqi })]

/-- What R169 says GET does with an option value of some bytes: ERR_NOSPACE with HOSTOUT untouched, or
the bytes at HOSTOUT's start and their count. -/
def Sys2Proof.Machine.afterGet (s : State) (m : Byte) (bytes : List Byte) : State :=
  if m.toNat < bytes.length then { s with hostIn := [m], events := s.events ++ [.done errNoSpace none] }
  else
    { s with
      hostIn := [m]
      hostOut := s.hostOut.writeBytes 0 bytes
      events := s.events ++ [.done (BitVec.ofNat 16 bytes.length) none] }

/-- R169 to R175: each option's value, byte for byte. IID's marker bytes 0xFF and 0xFE are the spec's own general
knowledge, not its source's (R82, G1): PRESUMED, log 14. -/
def Obligations.GetOptionValues : Prop :=
  ∀ (s : State) (m : Byte), s.Ready →
    exec (.getDeviceType m) s = .next (afterGet s m
      [s.params.deviceTypeId.extractLsb' 0 8, s.params.deviceTypeId.extractLsb' 8 8]) ∧
    exec (.getProto m) s = .next (afterGet s m
      [s.params.protoTag.extractLsb' 0 8, s.params.protoTag.extractLsb' 8 8]) ∧
    exec (.getChannel m) s = .next (afterGet s m [s.channel]) ∧
    exec (.getAddress m) s = .next (afterGet s m [s.nodeAddr]) ∧
    exec (.getMaxFrame m) s = .next (afterGet s m [0xFF, 0x00]) ∧
    exec (.getIid m) s = .next (afterGet s m [0x00, 0x00, 0x00, 0xFF, 0xFE, 0x00, 0x00, s.nodeAddr])

/-- What a command does that ends with a result and no other effect than its latched operands. -/
def Sys2Proof.Machine.afterResult (s : State) (operands : List Byte) (r : Result) : State :=
  { s with hostIn := operands, events := s.events ++ [.done r none] }

/-- R176: GET of a reserved option. -/
def Obligations.GetReservedNotSupported : Prop :=
  ∀ (s : State) (m : Byte), s.Ready →
    exec (.getOpt6 m) s = .next (afterResult s [m] errNotSup) ∧
    exec (.getOpt7 m) s = .next (afterResult s [m] errNotSup) ∧
    exec (.getOpt8 m) s = .next (afterResult s [m] errNotSup) ∧
    exec (.getOpt9 m) s = .next (afterResult s [m] errNotSup) ∧
    exec (.getOptA m) s = .next (afterResult s [m] errNotSup) ∧
    exec (.getOptB m) s = .next (afterResult s [m] errNotSup) ∧
    exec (.getOptC m) s = .next (afterResult s [m] errNotSup) ∧
    exec (.getOptD m) s = .next (afterResult s [m] errNotSup) ∧
    exec (.getOptE m) s = .next (afterResult s [m] errNotSup) ∧
    exec (.getOptF m) s = .next (afterResult s [m] errNotSup)

/-- R180, R181: SET of a read-only or a reserved option, whatever the value, its length included; its
`vlen` and value bytes are consumed from the command stream. -/
def Obligations.SetReadOnlyOrReservedRefused : Prop :=
  (∀ (opt : BitVec 4) (v rest : List Byte), v.length < 256 →
    decodeCmd ((0x50 ||| opt.setWidth 8) :: u8 v.length :: (v ++ rest)) = .ok (setRow opt v, rest)) ∧
  ∀ (s : State) (v : List Byte), s.Ready →
    exec (.setDeviceType v) s = .next (afterResult s v errNotSup) ∧
    exec (.setProto v) s = .next (afterResult s v errNotSup) ∧
    exec (.setMaxFrame v) s = .next (afterResult s v errNotSup) ∧
    exec (.setIid v) s = .next (afterResult s v errNotSup) ∧
    exec (.setOpt6 v) s = .next (afterResult s v errNotSup) ∧
    exec (.setOpt7 v) s = .next (afterResult s v errNotSup) ∧
    exec (.setOpt8 v) s = .next (afterResult s v errNotSup) ∧
    exec (.setOpt9 v) s = .next (afterResult s v errNotSup) ∧
    exec (.setOptA v) s = .next (afterResult s v errNotSup) ∧
    exec (.setOptB v) s = .next (afterResult s v errNotSup) ∧
    exec (.setOptC v) s = .next (afterResult s v errNotSup) ∧
    exec (.setOptD v) s = .next (afterResult s v errNotSup) ∧
    exec (.setOptE v) s = .next (afterResult s v errNotSup) ∧
    exec (.setOptF v) s = .next (afterResult s v errNotSup)

/-- R178, and R177's zero length: SET CHANNEL stores and programs a channel in range; any other value
leaves the channel unchanged with ERR_INVAL and no bus record. `V[1..]` is ignored. -/
def Obligations.SetChannelValidates : Prop :=
  ∀ (s : State) (v : Byte) (vs : List Byte), s.Ready →
    (s.params.chanMin ≤ v → v ≤ s.params.chanMax →
      exec (.setChannel (v :: vs)) s = .next { s with
        hostIn := v :: vs
        channel := v
        busTrace := s.busTrace ++ [.wr s.params.regChannel v]
        events := s.events ++ [.done 0 none] }) ∧
    (v < s.params.chanMin ∨ s.params.chanMax < v →
      exec (.setChannel (v :: vs)) s = .next (afterResult s (v :: vs) errInval)) ∧
    exec (.setChannel []) s = .next (afterResult s [] errInval)

/-- R179, and R177's zero length: SET ADDRESS stores any address but 0, and issues no bus transaction. -/
def Obligations.SetAddressValidates : Prop :=
  ∀ (s : State) (v : Byte) (vs : List Byte), s.Ready →
    (v ≠ 0 →
      exec (.setAddress (v :: vs)) s = .next { s with
        hostIn := v :: vs
        nodeAddr := v
        events := s.events ++ [.done 0 none] }) ∧
    exec (.setAddress (0 :: vs)) s = .next (afterResult s (0 :: vs) errInval) ∧
    exec (.setAddress []) s = .next (afterResult s [] errInval)

/-- R85, R182: which command bytes are illegal, that they have no operand bytes, and that each answers
Done(ERR_ILLEGAL), with no other effect. -/
def Obligations.IllegalCommandsAnswerIllegal : Prop :=
  (∀ (c : Byte) (bs : List Byte),
    (opcOf c).toNat = 0 ∨ 6 ≤ (opcOf c).toNat ∨
      (1 ≤ (opcOf c).toNat ∧ (opcOf c).toNat ≤ 3 ∧ (optOf c).toNat ≠ 0) →
    ∃ i, i.illegal = true ∧ decodeCmd (c :: bs) = .ok (i, bs)) ∧
  ∀ (i : Instr) (s : State), i.illegal = true → s.Legal → s.pos = .none →
    exec i s = .next { s with events := s.events ++ [.done errIllegal none] }

/-- R165, R194 (b): the port accepts a command only while op is NONE: one that arrives while an operation is in
progress is refused, as a command run there is; one that arrives between commands is taken in (log 26). -/
def Obligations.CommandsRefusedWhileBusy : Prop :=
  (∀ (i : Instr) (s : State), i.format = .cmd → s.Legal → s.pos ≠ .none → exec i s = .refused .portBusy) ∧
  ∀ (s : State) (bytes : List Byte) (rest : List Move), s.Legal → s.sched = .present bytes :: rest →
    (s.pos ≠ .none → step s = .refused .portBusy) ∧
    (s.pos = .none → step s = .next { s with sched := rest, port := s.port ++ bytes })

/-- R53, R89: each bus primitive appends its one record and changes nothing else of the block; the
reserved kinds are never produced and are refused (I5). That a record row stands for its completed
primitive is the model's reading (log 10). -/
def Obligations.BusRecordRows : Prop :=
  ∀ (s : State) (r v c : Byte) (b : List Byte) (low : BitVec 1),
    exec (.recRd r v) s = .next { s with busTrace := s.busTrace ++ [.rd r v] } ∧
    exec (.recWr r v) s = .next { s with busTrace := s.busTrace ++ [.wr r v] } ∧
    exec (.recBrd r b) s = .next { s with busTrace := s.busTrace ++ [.brd r b] } ∧
    exec (.recBwr r b) s = .next { s with busTrace := s.busTrace ++ [.bwr r b] } ∧
    exec (.recSt c) s = .next { s with busTrace := s.busTrace ++ [.st c] } ∧
    exec .recReserved5 s = .refused .reservedRecord ∧
    exec (.recReserved6 low) s = .refused .reservedRecord

/-! ### The step -/

/-- What accepting a command with moves pending leaves (R165): the operands latched as HOSTIN, the sequencer at
the operation's first label, nothing else changed. -/
def Sys2Proof.Machine.acceptedAt (s : State) (p : Pos) (operands : List Byte) : State :=
  { s with pos := p, hostIn := operands }

/-- A step runs the decoded command: with op = NONE the port's whole command (R80, R165), after TASK's
move is taken, or undisturbed to its end under `run`; with nothing whole, and no dispatch to take, the block
waits (log 17); with an operation in progress it goes on from its label (R38), where TASK has stopped only to the
end of its atomic block (R12; log 19). With moves pending a command is
only accepted (R165; log 2). -/
def Obligations.StepRunsDecodedCommand : Prop :=
  (∀ (s : State) (rest : List Move),
    (∀ i bytes, s.pos = .none → decodeCmd s.port = .ok (i, bytes) →
      (s.sched = [] → step s = exec i { s with port := bytes }) ∧
      (s.sched = .task :: rest → step s = exec i { s with port := bytes, sched := rest }) ∧
      (∀ t, s.sched = .run :: rest → exec i { s with port := bytes, sched := [] } = .next t →
        step s = .next { t with sched := rest })) ∧
    (∀ e, s.Legal → s.pos = .none → decodeCmd s.port = .error e →
      (s.sched = [] → dispatchReady s = false → step s = .next s) ∧
      (s.sched = .task :: rest → step s = .next { s with sched := rest })) ∧
    (s.Legal → s.pos ≠ .none →
      (s.sched = [] → step s = resumeOp s) ∧
      (s.sched = [.stop] → s.pos.isYield = false → step s = resumeOp s) ∧
      (s.sched = .task :: rest → step s = resumeOp { s with sched := rest }))) ∧
  ∀ s : State, s.Legal → s.pos = .none → s.sched ≠ [] →
    exec .init s = .next (acceptedAt s (.init .i1) []) ∧
    (∀ f, exec (.send f) s = .next (acceptedAt s (.send .s1) f)) ∧
    (∀ m, exec (.receive m) s = .next (acceptedAt s (.receive .v1) [m])) ∧
    (∀ opt m, exec (getRow opt m) s = .next (acceptedAt s (.get opt) [m])) ∧
    (∀ opt v, exec (setRow opt v) s = .next (acceptedAt s (.set (.e1 opt)) v))

/-- What `withFetchWord` presents, the next step runs: a command, and, for a word of at most four bits, the
dispatch of that key. That words stand for these, and where they are put, is the model's choice (log 11,
log 12, log 15). -/
def Obligations.PresentedWordIsNextInstruction : Prop :=
  ∀ (s : State) (nbits w : Nat) (i : Instr), decodeTableWord nbits w = some i →
    (4 < nbits → step (s.withFetchWord nbits w) = exec i { s with port := [], pos := .none, sched := [] }) ∧
    (nbits ≤ 4 → ∃ t, step (s.withFetchWord nbits w) = exec i t ∧ (dispatchKey t).toNat = w % 16 ∧
      t = { s with
        state := t.state
        evtPin := t.evtPin
        pinPrev := t.evtPin
        irqEn := true
        irqPend := true
        pos := .none
        sched := []
        upperPull := false })

/-- R226, R18: a command run whole is a run of single task steps. Whatever moves come after, the steps of
TASK alone, one at a time, end where TASK's undisturbed run ends (log 2). -/
def Obligations.TaskStepsRefineWholeCommand : Prop :=
  ∀ (s t : State) (rest : List Move), s.Legal → s.sched = [] → rest ≠ [] → taskStep s = .next t →
    ∃ n, Host.Core.run Sys2Proof.core n { s with sched := List.replicate n .task ++ rest } =
      .next { t with sched := rest }

/-- R136, R226: the dispatch is weakly fair, and TASK is not assumed fair. A machine left to itself is weakly fair
to the dispatch, also where TASK has stopped (log 19). Where TASK stops at an interleaving point, in whatever
operation, it takes no step for ever, and a run goes on in which ISR does what it does. Any moves for ever, in any
order, are those of a run, so none of TASK's need be among them, and then an operation does not go on; no order
makes the machine stop, where a command is not presented to a busy port. In a run that is weakly fair, which a run
need not be, the dispatch is always sooner or later not enabled or not pending. -/
def Obligations.OnlyTheDispatchIsFair : Prop :=
  (∀ run : Nat → State, UnattendedRun run → WeaklyFair run) ∧
  (∀ s : State, s.Legal → s.sched = [.stop] → s.pos.isYield = true →
    ∃ run, UnattendedRun run ∧ run 0 = s ∧
      ∀ k, (run k).pos = s.pos ∧ (run k).port = s.port ∧ (run k).sched = [.stop]) ∧
  (∀ (s : State) (moves : Nat → Move), MachineInv s → (∀ k bytes, moves k ≠ .present bytes) →
    ∃ run, IsRun run ∧ run 0 = { s with sched := [moves 0, moves 1] } ∧
      ∀ k, (run k).sched = [moves k, moves (k + 1)] ∧
        ((∀ j, moves j ≠ .task ∧ moves j ≠ .run ∧ ∀ tx rx, moves j ≠ .reset tx rx) →
          (run k).pos = s.pos ∧ (run k).port = s.port)) ∧
  ∀ run : Nat → State, IsRun run → WeaklyFair run → ∀ k, ∃ j, k ≤ j ∧ dispatchReady (run j) = false

/-! ### Whole-machine rules -/

/-- The invariant holds after reset, for every well-formed parameter set and every level of the pin, and
of `State.reset`. -/
def Obligations.ResetSatisfiesInv : Prop :=
  (∀ (p : Params) (pin : Bool), p.wf → MachineInv (State.initial p pin)) ∧ MachineInv State.reset

/-- Every step keeps the invariant (Safety.lean): the six states (R35), the legal address and channel
(R20, R22), the canonical buffers, the masked region (R131), the double failure's lock (R218), the edge detector's
memory of the pin (R25, R133), no dispatch while Unknown (R210). -/
def Obligations.StepKeepsInv : Prop :=
  ∀ s t : State, MachineInv s → step s = .next t → MachineInv t

/-- R194: neither model fault nor refusal is reached from a state that keeps the invariant, where TASK, as it must
(R165), presents no command while one is in progress. -/
def Obligations.StepNeverStops : Prop :=
  ∀ s : State, MachineInv s → (∀ bytes rest, s.sched = .present bytes :: rest → s.pos = .none) →
    ∃ t, step s = .next t

/-- R150, R151: the whole state machine, over every step. -/
def Obligations.OnlyTabulatedTransitions : Prop :=
  ∀ s t : State, MachineInv s → step s = .next t →
    t.state = s.state ∨
    (s.IsrTurn ∧
      ((s.state = RadioState.receiving.code ∧ s.evtPin = true ∧ t.state = RadioState.receivingBusy.code) ∨
       (s.state = RadioState.receivingBusy.code ∧ s.evtPin = false ∧ t.state = RadioState.receiving.code) ∨
       (s.state = RadioState.transmitting.code ∧ s.evtPin = false ∧ t.state = RadioState.receiving.code))) ∨
    ((s.pos.op = .send ∨ (s.pos = .none ∧ ∃ f rest, portCommand s = some (.send f, rest))) ∧
      (s.Eligible ∨ s.state = RadioState.receivingBusy.code) ∧ t.state = RadioState.transmitting.code) ∨
    ((s.pos.op = .init ∨ (s.pos = .none ∧ ∃ rest, portCommand s = some (.init, rest))) ∧
      (t.state = RadioState.idle.code ∨ (s.params.initArmsRx = true ∧ t.state = RadioState.receiving.code))) ∨
    (∃ tx rx rest, s.sched = .reset tx rx :: rest ∧ t.state = RadioState.unknown.code)

/-- R20 to R22, R33: which instruction may write `node_addr`, `channel` and the parameters, and that
`stat_rx_while_tx` is never written. -/
def Obligations.AddressAndChannelWriters : Prop :=
  ∀ (i : Instr) (s t : State), exec i s = .next t →
    t.params = s.params ∧ t.statRxWhileTx = s.statRxWhileTx ∧
    (t.nodeAddr = s.nodeAddr ∨ ∃ v vs, i = .setAddress (v :: vs) ∧ v ≠ 0 ∧ t.nodeAddr = v) ∧
    (t.channel = s.channel ∨
      ∃ v vs, i = .setChannel (v :: vs) ∧ s.params.chanMin ≤ v ∧ v ≤ s.params.chanMax ∧ t.channel = v)

/-- The frame of every instruction, over all 66 rows: which row may write which buffer, counter, status
bit, output and input (10_state.md R19's table, R23 to R33, R44). -/
def Obligations.WritersOfEachField : Prop :=
  ∀ (i : Instr) (s t : State), exec i s = .next t →
    ((∀ f, i ≠ .send f) → t.txBuf = s.txBuf ∧ t.txLen = s.txLen ∧ t.statTx = s.statTx ∧ t.pollK = s.pollK ∧
      t.retry = s.retry ∧ t.stamp = s.stamp) ∧
    (i ≠ .dispatchRxComplete → t.rxBuf = s.rxBuf ∧ t.rxLen = s.rxLen ∧ t.rxRssi = s.rxRssi ∧ t.rxLqi = s.rxLqi ∧
      t.statRx = s.statRx ∧ t.statCrcFail = s.statCrcFail ∧ t.upperCopies = s.upperCopies) ∧
    ((∀ f, i ≠ .send f) → i ≠ .init → t.irqEn = s.irqEn ∧ t.txFault = s.txFault) ∧
    (i.format = .cmd → i ≠ .init → t.irqPend = s.irqPend) ∧
    ((∀ m, i ≠ .receive m) → (∀ opt m, i ≠ getRow opt m) → t.hostOut = s.hostOut) ∧
    ((∀ f, i ≠ .send f) → i ≠ .init → i.format = .cmd → t.state = s.state) ∧
    (i.format = .record → t = { s with busTrace := t.busTrace }) ∧
    t.evtPin = s.evtPin ∧ t.pinPrev = s.pinPrev ∧ t.port = s.port ∧ t.sched = s.sched ∧ t.upperPull = s.upperPull

/-- R49, R159, R167, R169: the bytes each form stores, and that every other index reads as before. GET
stores its value at HOSTOUT's start, RECEIVE the buffered frame, a delivery its payload in RXBUF; a reception
that delivers nothing leaves all of RXBUF as it was. -/
def Obligations.MemoryWritesStayInside : Prop :=
  (∀ (s t : State) (opt : BitVec 4) (m : Byte), s.Ready → s.hostOut.wf → exec (getRow opt m) s = .next t →
    (∀ bytes, optionValue opt s = some bytes → bytes.length ≤ m.toNat →
      ∀ a, t.hostOut.read a = if a < bytes.length then bytes.getD a 0 else s.hostOut.read a) ∧
    ((optionValue opt s = none ∨ ∃ bytes, optionValue opt s = some bytes ∧ m.toNat < bytes.length) →
      ∀ a, t.hostOut.read a = s.hostOut.read a)) ∧
  (∀ (s t : State) (m : Byte), s.Ready → s.hostOut.wf → exec (.receive m) s = .next t →
    ∀ a, t.hostOut.read a =
      if s.rxLen.toNat ≤ m.toNat ∧ a < s.rxLen.toNat then s.rxBuf.read a else s.hostOut.read a) ∧
  (∀ (s t : State), s.rxBuf.wf → exec .dispatchRxComplete s = .next t →
    (t.rxBuf = s.rxBuf ∧ t.rxLen = s.rxLen ∧ .frameAvailable ∉ t.events.drop s.events.length) ∨
    (∃ b, b.length = t.rxLen.toNat ∧ .brd s.params.regRxFifo b ∈ t.busTrace.drop s.busTrace.length ∧
      t.events = s.events ++ [.frameAvailable] ∧
      ∀ a, t.rxBuf.read a = if a < b.length then b.getD a 0 else s.rxBuf.read a))

/-- R17, R206, R221: a step of one instance changes no other, and two instances on one transport are
refused at instantiation. That an empty list is refused too is the model's choice, from R7's "at least one"
(log 24). -/
def Obligations.InstancesIndependent : Prop :=
  (∀ (ns ms : List Node) (k : Nat), stepNode ns k = some ms →
    ms.length = ns.length ∧ (∀ j, j ≠ k → ms[j]? = ns[j]?) ∧
    ∃ n t, ns[k]? = some n ∧ step n.ctx = .next t ∧ ms[k]? = some { n with ctx := t }) ∧
  (∀ bs : List Binding, instantiate bs = none ↔ bs = [] ∨ ¬ (bs.map Binding.transport).Nodup)
end

