-- ==== Sys2Proof/Laws/Config.lean ====
section
/-! SUPPORT. The constants of the spec as numerals, for simp. -/

namespace Sys2Proof

@[simp] theorem hdrLen_eq : hdrLen = 3 := rfl
@[simp] theorem maxFrame_eq : maxFrame = 255 := rfl
@[simp] theorem maxLength_eq : maxLength = 254 := rfl
@[simp] theorem maxData_eq : maxData = 251 := rfl
@[simp] theorem numStates_eq : numStates = 6 := rfl
@[simp] theorem broadcast_eq : broadcast = 0 := rfl
@[simp] theorem pollMax_eq : pollMax = 100 := rfl

/-- The parameters that `State.reset` starts with keep the constraints of 00_scope.md R7. -/
theorem resetParams_wf : Config.resetParams.wf := by
  unfold Config.resetParams
  split
  · assumption
  · decide

end Sys2Proof
end

