-- ==== Sys2Proof/Laws/Decode.lean ====
section
/-! SUPPORT. Laws of the decoder's pieces. -/

namespace Sys2Proof

theorem takeExactly_append (x rest : List Byte) : takeExactly x.length (x ++ rest) = some (x, rest) := by
  induction x with
  | nil => rfl
  | cons b x ih => simp [takeExactly, ih]

/-- What `takeExactly` splits is a split of what it was given, of the asked length. -/
theorem takeExactly_sound {n : Nat} {bs x rest : List Byte} (h : takeExactly n bs = some (x, rest)) :
    bs = x ++ rest ∧ x.length = n := by
  induction n generalizing bs x with
  | zero => simp_all [takeExactly]
  | succ n ih =>
    cases bs with
    | nil => simp [takeExactly] at h
    | cons b bs =>
      unfold takeExactly at h
      split at h
      · cases h
      · rename_i y r hy
        simp only [Option.some.injEq, Prod.mk.injEq] at h
        obtain ⟨rfl, rfl⟩ := h
        obtain ⟨rfl, rfl⟩ := ih hy
        simp

/-- Enough bytes are always split. -/
theorem takeExactly_enough {n : Nat} {bs : List Byte} (h : n ≤ bs.length) : ∃ x rest, takeExactly n bs = some (x, rest) := by
  have := takeExactly_append (bs.take n) (bs.drop n)
  rw [List.length_take, Nat.min_eq_left h, List.take_append_drop] at this
  exact ⟨_, _, this⟩

theorem u8_toNat {n : Nat} (h : n < 256) : (u8 n).toNat = n := by
  rw [u8, BitVec.toNat_ofNat]
  exact Nat.mod_eq_of_lt h

theorem takeCounted_counted {b : List Byte} (h : b.length < 256) (rest : List Byte) :
    takeCounted (counted b ++ rest) = some (b, rest) := by
  simp only [counted, List.cons_append, takeCounted, u8_toNat h]
  exact takeExactly_append b rest

theorem takeCounted_sound {bs x rest : List Byte} (h : takeCounted bs = some (x, rest)) :
    bs = counted x ++ rest ∧ x.length < 256 := by
  cases bs with
  | nil => simp [takeCounted] at h
  | cons n bs =>
    obtain ⟨rfl, hl⟩ := takeExactly_sound h
    refine ⟨?_, by have := n.isLt; omega⟩
    simp [counted, hl]

theorem takeFrame_frame {f : List Byte} (h : frameOperandWf f = true) (rest : List Byte) :
    takeFrame (f ++ rest) = some (f, rest) := by
  cases f with
  | nil => simp [frameOperandWf] at h
  | cons l x =>
    have hl : x.length = l.toNat := by simpa [frameOperandWf] using h
    have := takeExactly_append x rest
    rw [hl] at this
    simp [takeFrame, this]

theorem takeFrame_sound {bs f rest : List Byte} (h : takeFrame bs = some (f, rest)) :
    bs = f ++ rest ∧ frameOperandWf f = true := by
  cases bs with
  | nil => simp [takeFrame] at h
  | cons l bs =>
    simp only [takeFrame] at h
    split at h
    · cases h
    · rename_i y r hy
      simp only [Option.some.injEq, Prod.mk.injEq] at h
      obtain ⟨rfl, rfl⟩ := h
      obtain ⟨rfl, hl⟩ := takeExactly_sound hy
      simp [frameOperandWf, hl]

end Sys2Proof
end

