-- ==== Sys2Proof/Laws/Memory.lean ====
section
/-! SUPPORT. Laws of the local spaces: reading after writing, the canonical form, the bounds. -/

namespace Sys2Proof.Machine

theorem Memory.read_entry_append (a : Nat) (v : Byte) (m : Memory) (i : Nat) (h : Memory.read m a = Memory.unlisted) :
    Memory.read (Memory.entry a v ++ m) i = if i = a then v else m.read i := by
  unfold Memory.entry
  split
  · by_cases hi : i = a
    · subst hi; simp_all
    · simp [hi]
  · by_cases hi : i = a
    · simp [Memory.read, hi]
    · simp [Memory.read, hi, Ne.symm hi]

/-- An index below every listed one reads as unlisted. -/
theorem Memory.read_of_lt {m : Memory} {a : Nat} (h : ∀ c ∈ m, a < c.1) : m.read a = Memory.unlisted := by
  induction m with
  | nil => rfl
  | cons c m ih =>
    obtain ⟨b, w⟩ := c
    have hb : a < b := h (b, w) (by simp)
    simp [Memory.read, Nat.ne_of_gt hb, ih (fun c hc => h c (by simp [hc]))]

theorem Memory.wf_tail {b : Nat} {w : Byte} {m : Memory} (h : Memory.wf ((b, w) :: m)) : m.wf :=
  ⟨(List.pairwise_cons.mp h.1).2, fun c hc => h.2 c (by simp [hc])⟩

theorem Memory.wf_head {b : Nat} {w : Byte} {m : Memory} (h : Memory.wf ((b, w) :: m)) : ∀ c ∈ m, b < c.1 :=
  (List.pairwise_cons.mp h.1).1

/-- Read after write: the written index reads the value, every other one as before. -/
theorem Memory.read_write {m : Memory} (h : m.wf) (a : Nat) (v : Byte) (i : Nat) :
    (m.write a v).read i = if i = a then v else m.read i := by
  induction m with
  | nil =>
    have := Memory.read_entry_append a v [] i rfl
    simpa [Memory.write] using this
  | cons c m ih =>
    obtain ⟨b, w⟩ := c
    have ih := ih (Memory.wf_tail h)
    have hb := Memory.wf_head h
    unfold Memory.write
    split
    · rename_i hlt
      by_cases hi : b = i
      · subst hi; simp [Memory.read, Nat.ne_of_lt hlt]
      · simp [Memory.read, hi, ih]
    · split
      · rename_i _ heq
        subst heq
        rw [Memory.read_entry_append b v m i (Memory.read_of_lt hb)]
        by_cases hi : i = b
        · simp [hi]
        · simp [hi, Memory.read, Ne.symm hi]
      · rename_i hlt hne
        rw [Memory.read_entry_append]
        apply Memory.read_of_lt
        intro c hc
        rcases List.mem_cons.mp hc with rfl | hc
        · simp; omega
        · have := hb c hc; omega

theorem Memory.read_write_same {m : Memory} (h : m.wf) (a : Nat) (v : Byte) : (m.write a v).read a = v := by
  simp [Memory.read_write h]

theorem Memory.read_write_other {m : Memory} (h : m.wf) {a i : Nat} (v : Byte) (hi : i ≠ a) :
    (m.write a v).read i = m.read i := by
  simp [Memory.read_write h, hi]

/-- Every entry of a written memory is an old entry or the written one. -/
theorem Memory.mem_write {m : Memory} {a : Nat} {v : Byte} {c : Host.Cell} (h : c ∈ m.write a v) :
    c ∈ m ∨ (c = (a, v) ∧ v ≠ Memory.unlisted) := by
  have he : ∀ c, c ∈ Memory.entry a v → c = (a, v) ∧ v ≠ Memory.unlisted := by
    intro c hc
    unfold Memory.entry at hc
    split at hc <;> simp_all
  induction m with
  | nil => exact .inr (he c h)
  | cons d m ih =>
    obtain ⟨b, w⟩ := d
    unfold Memory.write at h
    split at h
    · rcases List.mem_cons.mp h with h | h
      · exact .inl (by simp [h])
      · rcases ih h with h | h
        · exact .inl (by simp [h])
        · exact .inr h
    · split at h
      · rcases List.mem_append.mp h with h | h
        · exact .inr (he c h)
        · exact .inl (by simp [h])
      · rcases List.mem_append.mp h with h | h
        · exact .inr (he c h)
        · exact .inl h

theorem Memory.wf_nil : Memory.wf [] := ⟨List.Pairwise.nil, by simp⟩

theorem Memory.wf_entry_append {a : Nat} {v : Byte} {m : Memory} (h : m.wf) (ha : ∀ c ∈ m, a < c.1) :
    Memory.wf (Memory.entry a v ++ m) := by
  unfold Memory.entry
  split
  · simpa using h
  · rename_i hv
    refine ⟨?_, ?_⟩
    · simpa using ⟨fun b w hc => ha (b, w) hc, h.1⟩
    · intro c hc
      rcases List.mem_append.mp hc with hc | hc
      · simp_all
      · exact h.2 c hc

/-- A write keeps the canonical form. -/
theorem Memory.wf_write {m : Memory} (h : m.wf) (a : Nat) (v : Byte) : (m.write a v).wf := by
  induction m with
  | nil => simpa [Memory.write] using Memory.wf_entry_append (a := a) (v := v) Memory.wf_nil (by simp)
  | cons d m ih =>
    obtain ⟨b, w⟩ := d
    have hb := Memory.wf_head h
    unfold Memory.write
    split
    · rename_i hlt
      have ih := ih (Memory.wf_tail h)
      refine ⟨List.pairwise_cons.mpr ⟨?_, ih.1⟩, ?_⟩
      · intro c hc
        rcases Memory.mem_write hc with hc | hc
        · exact hb c hc
        · simp [hc.1, hlt]
      · intro c hc
        rcases List.mem_cons.mp hc with rfl | hc
        · exact h.2 _ (by simp)
        · exact ih.2 c hc
    · split
      · rename_i _ heq
        subst heq
        exact Memory.wf_entry_append (Memory.wf_tail h) hb
      · refine Memory.wf_entry_append h ?_
        intro c hc
        rcases List.mem_cons.mp hc with rfl | hc
        · simp; omega
        · have := hb c hc; omega

/-- A write inside a space keeps the space's bound. -/
theorem Memory.within_write {m : Memory} {n : Nat} (h : m.within n) {a : Nat} (ha : a < n) (v : Byte) :
    (m.write a v).within n := by
  intro c hc
  rcases Memory.mem_write hc with hc | hc
  · exact h c hc
  · simp [hc.1, ha]

theorem Memory.wf_writeBytes {m : Memory} (h : m.wf) (a : Nat) (b : List Byte) : (m.writeBytes a b).wf := by
  induction b generalizing m a with
  | nil => exact h
  | cons v b ih => exact ih (Memory.wf_write h a v) (a + 1)

theorem Memory.within_writeBytes {m : Memory} {n : Nat} (h : m.within n) {a : Nat} (b : List Byte)
    (ha : a + b.length ≤ n) : (m.writeBytes a b).within n := by
  induction b generalizing m a with
  | nil => exact h
  | cons v b ih =>
    simp only [List.length_cons] at ha
    exact ih (Memory.within_write h (by omega) v) (by omega)

/-- Reading after a MemWrite: the written bytes inside, everything else as before. -/
theorem Memory.read_writeBytes {m : Memory} (h : m.wf) (a : Nat) (b : List Byte) (i : Nat) :
    (m.writeBytes a b).read i = if a ≤ i ∧ i < a + b.length then b.getD (i - a) 0 else m.read i := by
  induction b generalizing m a with
  | nil => simp [Memory.writeBytes]
  | cons v b ih =>
    rw [Memory.writeBytes, ih (Memory.wf_write h a v), Memory.read_write h]
    simp only [List.length_cons]
    by_cases h1 : i = a
    · subst h1; simp
    · by_cases h2 : a + 1 ≤ i ∧ i < a + 1 + b.length
      · have : i - a = (i - (a + 1)) + 1 := by omega
        rw [if_pos h2, if_pos (by omega), this]; simp
      · rw [if_neg h2, if_neg h1, if_neg (by omega)]

@[simp] theorem Memory.length_readBytes (m : Memory) (a n : Nat) : (m.readBytes a n).length = n := by
  induction n generalizing a with
  | zero => rfl
  | succ n ih => simp [Memory.readBytes, ih]

theorem Memory.getD_readBytes (m : Memory) (a n i : Nat) (h : i < n) : (m.readBytes a n).getD i 0 = m.read (a + i) := by
  induction n generalizing a i with
  | zero => omega
  | succ n ih =>
    cases i with
    | zero => simp [Memory.readBytes]
    | succ i =>
      have := ih (a + 1) i (by omega)
      simp only [Memory.readBytes, List.getD_cons_succ, this]
      congr 1; omega

/-- Two byte strings of one length that agree at every index are equal. -/
theorem bytes_ext {x y : List Byte} (hl : x.length = y.length) (h : ∀ i < x.length, x.getD i 0 = y.getD i 0) : x = y := by
  apply List.ext_getElem hl
  intro i h1 h2
  have := h i h1
  simpa [List.getD_eq_getElem?_getD, List.getElem?_eq_getElem h1, List.getElem?_eq_getElem h2] using this

/-- What was written is what is read back. -/
theorem Memory.readBytes_writeBytes {m : Memory} (h : m.wf) (a : Nat) (b : List Byte) :
    (m.writeBytes a b).readBytes a b.length = b := by
  apply bytes_ext (by simp)
  intro i hi
  simp only [Memory.length_readBytes] at hi
  rw [Memory.getD_readBytes _ _ _ _ hi, Memory.read_writeBytes h, if_pos (by omega)]
  congr 1; omega

/-- A buffer filled by MemWrite and STAMP holds the bytes with byte 2 replaced (R104, R118). -/
theorem stampBuf_readBytes {m : Memory} (h : m.wf) (b : List Byte) (a : Byte) :
    (stampBuf (m.writeBytes 0 b) a).readBytes 0 b.length = b.set 2 a := by
  apply bytes_ext (by simp)
  intro i hi
  simp only [Memory.length_readBytes] at hi
  rw [Memory.getD_readBytes _ _ _ _ hi, stampBuf, Memory.read_write (Memory.wf_writeBytes h 0 b), Memory.read_writeBytes h]
  simp only [Nat.zero_add, Nat.zero_le, true_and, Nat.sub_zero]
  by_cases h2 : i = 2
  · subst h2; simp [List.getD_eq_getElem?_getD, hi]
  · rw [if_neg h2, if_pos hi]; simp [List.getD_eq_getElem?_getD, Ne.symm h2]

theorem Memory.wf_ofBytes (b : List Byte) : (Memory.ofBytes b).wf := Memory.wf_writeBytes Memory.wf_nil 0 _

theorem Memory.within_ofBytes (b : List Byte) : (Memory.ofBytes b).within maxFrame :=
  Memory.within_writeBytes (by intro c hc; simp at hc) _ (by simp)

theorem stampBuf_wf {m : Memory} (h : m.wf) (a : Byte) : (stampBuf m a).wf := Memory.wf_write h 2 a

theorem stampBuf_within {m : Memory} (h : m.within maxFrame) (a : Byte) : (stampBuf m a).within maxFrame :=
  Memory.within_write h (by decide) a

end Sys2Proof.Machine
end

