-- ==== Sys2Proof/Laws/State.lean ====
section
/-! SUPPORT. One lemma per field per update: what each named operation leaves in each field of State. -/

namespace Sys2Proof.Machine

/-! `record` -/

@[simp] theorem record_state (r : BusRecord) (s : State) : (s.record r).state = s.state := rfl
@[simp] theorem record_nodeAddr (r : BusRecord) (s : State) : (s.record r).nodeAddr = s.nodeAddr := rfl
@[simp] theorem record_channel (r : BusRecord) (s : State) : (s.record r).channel = s.channel := rfl
@[simp] theorem record_irqEn (r : BusRecord) (s : State) : (s.record r).irqEn = s.irqEn := rfl
@[simp] theorem record_irqPend (r : BusRecord) (s : State) : (s.record r).irqPend = s.irqPend := rfl
@[simp] theorem record_pinPrev (r : BusRecord) (s : State) : (s.record r).pinPrev = s.pinPrev := rfl
@[simp] theorem record_txFault (r : BusRecord) (s : State) : (s.record r).txFault = s.txFault := rfl
@[simp] theorem record_txBuf (r : BusRecord) (s : State) : (s.record r).txBuf = s.txBuf := rfl
@[simp] theorem record_txLen (r : BusRecord) (s : State) : (s.record r).txLen = s.txLen := rfl
@[simp] theorem record_rxBuf (r : BusRecord) (s : State) : (s.record r).rxBuf = s.rxBuf := rfl
@[simp] theorem record_rxLen (r : BusRecord) (s : State) : (s.record r).rxLen = s.rxLen := rfl
@[simp] theorem record_rxRssi (r : BusRecord) (s : State) : (s.record r).rxRssi = s.rxRssi := rfl
@[simp] theorem record_rxLqi (r : BusRecord) (s : State) : (s.record r).rxLqi = s.rxLqi := rfl
@[simp] theorem record_statRx (r : BusRecord) (s : State) : (s.record r).statRx = s.statRx := rfl
@[simp] theorem record_statCrcFail (r : BusRecord) (s : State) : (s.record r).statCrcFail = s.statCrcFail := rfl
@[simp] theorem record_statRxWhileTx (r : BusRecord) (s : State) : (s.record r).statRxWhileTx = s.statRxWhileTx := rfl
@[simp] theorem record_statTx (r : BusRecord) (s : State) : (s.record r).statTx = s.statTx := rfl
@[simp] theorem record_pos (r : BusRecord) (s : State) : (s.record r).pos = s.pos := rfl
@[simp] theorem record_pollK (r : BusRecord) (s : State) : (s.record r).pollK = s.pollK := rfl
@[simp] theorem record_retry (r : BusRecord) (s : State) : (s.record r).retry = s.retry := rfl
@[simp] theorem record_hostIn (r : BusRecord) (s : State) : (s.record r).hostIn = s.hostIn := rfl
@[simp] theorem record_stamp (r : BusRecord) (s : State) : (s.record r).stamp = s.stamp := rfl
@[simp] theorem record_copyN (r : BusRecord) (s : State) : (s.record r).copyN = s.copyN := rfl
@[simp] theorem record_copyRssi (r : BusRecord) (s : State) : (s.record r).copyRssi = s.copyRssi := rfl
@[simp] theorem record_copyLqi (r : BusRecord) (s : State) : (s.record r).copyLqi = s.copyLqi := rfl
@[simp] theorem record_copyIdx (r : BusRecord) (s : State) : (s.record r).copyIdx = s.copyIdx := rfl
@[simp] theorem record_evtPin (r : BusRecord) (s : State) : (s.record r).evtPin = s.evtPin := rfl
@[simp] theorem record_port (r : BusRecord) (s : State) : (s.record r).port = s.port := rfl
@[simp] theorem record_answers (r : BusRecord) (s : State) : (s.record r).answers = s.answers := rfl
@[simp] theorem record_draws (r : BusRecord) (s : State) : (s.record r).draws = s.draws := rfl
@[simp] theorem record_upperPull (r : BusRecord) (s : State) : (s.record r).upperPull = s.upperPull := rfl
@[simp] theorem record_sched (r : BusRecord) (s : State) : (s.record r).sched = s.sched := rfl
@[simp] theorem record_hostOut (r : BusRecord) (s : State) : (s.record r).hostOut = s.hostOut := rfl
@[simp] theorem record_busTrace (r : BusRecord) (s : State) : (s.record r).busTrace = s.busTrace ++ [r] := rfl
@[simp] theorem record_events (r : BusRecord) (s : State) : (s.record r).events = s.events := rfl
@[simp] theorem record_upperCopies (r : BusRecord) (s : State) : (s.record r).upperCopies = s.upperCopies := rfl
@[simp] theorem record_params (r : BusRecord) (s : State) : (s.record r).params = s.params := rfl

/-! `emit` -/

@[simp] theorem emit_state (e : Event) (s : State) : (s.emit e).state = s.state := rfl
@[simp] theorem emit_nodeAddr (e : Event) (s : State) : (s.emit e).nodeAddr = s.nodeAddr := rfl
@[simp] theorem emit_channel (e : Event) (s : State) : (s.emit e).channel = s.channel := rfl
@[simp] theorem emit_irqEn (e : Event) (s : State) : (s.emit e).irqEn = s.irqEn := rfl
@[simp] theorem emit_irqPend (e : Event) (s : State) : (s.emit e).irqPend = s.irqPend := rfl
@[simp] theorem emit_pinPrev (e : Event) (s : State) : (s.emit e).pinPrev = s.pinPrev := rfl
@[simp] theorem emit_txFault (e : Event) (s : State) : (s.emit e).txFault = s.txFault := rfl
@[simp] theorem emit_txBuf (e : Event) (s : State) : (s.emit e).txBuf = s.txBuf := rfl
@[simp] theorem emit_txLen (e : Event) (s : State) : (s.emit e).txLen = s.txLen := rfl
@[simp] theorem emit_rxBuf (e : Event) (s : State) : (s.emit e).rxBuf = s.rxBuf := rfl
@[simp] theorem emit_rxLen (e : Event) (s : State) : (s.emit e).rxLen = s.rxLen := rfl
@[simp] theorem emit_rxRssi (e : Event) (s : State) : (s.emit e).rxRssi = s.rxRssi := rfl
@[simp] theorem emit_rxLqi (e : Event) (s : State) : (s.emit e).rxLqi = s.rxLqi := rfl
@[simp] theorem emit_statRx (e : Event) (s : State) : (s.emit e).statRx = s.statRx := rfl
@[simp] theorem emit_statCrcFail (e : Event) (s : State) : (s.emit e).statCrcFail = s.statCrcFail := rfl
@[simp] theorem emit_statRxWhileTx (e : Event) (s : State) : (s.emit e).statRxWhileTx = s.statRxWhileTx := rfl
@[simp] theorem emit_statTx (e : Event) (s : State) : (s.emit e).statTx = s.statTx := rfl
@[simp] theorem emit_pos (e : Event) (s : State) : (s.emit e).pos = s.pos := rfl
@[simp] theorem emit_pollK (e : Event) (s : State) : (s.emit e).pollK = s.pollK := rfl
@[simp] theorem emit_retry (e : Event) (s : State) : (s.emit e).retry = s.retry := rfl
@[simp] theorem emit_hostIn (e : Event) (s : State) : (s.emit e).hostIn = s.hostIn := rfl
@[simp] theorem emit_stamp (e : Event) (s : State) : (s.emit e).stamp = s.stamp := rfl
@[simp] theorem emit_copyN (e : Event) (s : State) : (s.emit e).copyN = s.copyN := rfl
@[simp] theorem emit_copyRssi (e : Event) (s : State) : (s.emit e).copyRssi = s.copyRssi := rfl
@[simp] theorem emit_copyLqi (e : Event) (s : State) : (s.emit e).copyLqi = s.copyLqi := rfl
@[simp] theorem emit_copyIdx (e : Event) (s : State) : (s.emit e).copyIdx = s.copyIdx := rfl
@[simp] theorem emit_evtPin (e : Event) (s : State) : (s.emit e).evtPin = s.evtPin := rfl
@[simp] theorem emit_port (e : Event) (s : State) : (s.emit e).port = s.port := rfl
@[simp] theorem emit_answers (e : Event) (s : State) : (s.emit e).answers = s.answers := rfl
@[simp] theorem emit_draws (e : Event) (s : State) : (s.emit e).draws = s.draws := rfl
@[simp] theorem emit_upperPull (e : Event) (s : State) : (s.emit e).upperPull = s.upperPull := rfl
@[simp] theorem emit_sched (e : Event) (s : State) : (s.emit e).sched = s.sched := rfl
@[simp] theorem emit_hostOut (e : Event) (s : State) : (s.emit e).hostOut = s.hostOut := rfl
@[simp] theorem emit_busTrace (e : Event) (s : State) : (s.emit e).busTrace = s.busTrace := rfl
@[simp] theorem emit_events (e : Event) (s : State) : (s.emit e).events = s.events ++ [e] := rfl
@[simp] theorem emit_upperCopies (e : Event) (s : State) : (s.emit e).upperCopies = s.upperCopies := rfl
@[simp] theorem emit_params (e : Event) (s : State) : (s.emit e).params = s.params := rfl

/-! `setRadio` -/

@[simp] theorem setRadio_state (r : RadioState) (s : State) : (setRadio r s).state = r.code := rfl
@[simp] theorem setRadio_nodeAddr (r : RadioState) (s : State) : (setRadio r s).nodeAddr = s.nodeAddr := rfl
@[simp] theorem setRadio_channel (r : RadioState) (s : State) : (setRadio r s).channel = s.channel := rfl
@[simp] theorem setRadio_irqEn (r : RadioState) (s : State) : (setRadio r s).irqEn = s.irqEn := rfl
@[simp] theorem setRadio_irqPend (r : RadioState) (s : State) : (setRadio r s).irqPend = s.irqPend := rfl
@[simp] theorem setRadio_pinPrev (r : RadioState) (s : State) : (setRadio r s).pinPrev = s.pinPrev := rfl
@[simp] theorem setRadio_txFault (r : RadioState) (s : State) : (setRadio r s).txFault = s.txFault := rfl
@[simp] theorem setRadio_txBuf (r : RadioState) (s : State) : (setRadio r s).txBuf = s.txBuf := rfl
@[simp] theorem setRadio_txLen (r : RadioState) (s : State) : (setRadio r s).txLen = s.txLen := rfl
@[simp] theorem setRadio_rxBuf (r : RadioState) (s : State) : (setRadio r s).rxBuf = s.rxBuf := rfl
@[simp] theorem setRadio_rxLen (r : RadioState) (s : State) : (setRadio r s).rxLen = s.rxLen := rfl
@[simp] theorem setRadio_rxRssi (r : RadioState) (s : State) : (setRadio r s).rxRssi = s.rxRssi := rfl
@[simp] theorem setRadio_rxLqi (r : RadioState) (s : State) : (setRadio r s).rxLqi = s.rxLqi := rfl
@[simp] theorem setRadio_statRx (r : RadioState) (s : State) : (setRadio r s).statRx = s.statRx := rfl
@[simp] theorem setRadio_statCrcFail (r : RadioState) (s : State) : (setRadio r s).statCrcFail = s.statCrcFail := rfl
@[simp] theorem setRadio_statRxWhileTx (r : RadioState) (s : State) : (setRadio r s).statRxWhileTx = s.statRxWhileTx := rfl
@[simp] theorem setRadio_statTx (r : RadioState) (s : State) : (setRadio r s).statTx = s.statTx := rfl
@[simp] theorem setRadio_pos (r : RadioState) (s : State) : (setRadio r s).pos = s.pos := rfl
@[simp] theorem setRadio_pollK (r : RadioState) (s : State) : (setRadio r s).pollK = s.pollK := rfl
@[simp] theorem setRadio_retry (r : RadioState) (s : State) : (setRadio r s).retry = s.retry := rfl
@[simp] theorem setRadio_hostIn (r : RadioState) (s : State) : (setRadio r s).hostIn = s.hostIn := rfl
@[simp] theorem setRadio_stamp (r : RadioState) (s : State) : (setRadio r s).stamp = s.stamp := rfl
@[simp] theorem setRadio_copyN (r : RadioState) (s : State) : (setRadio r s).copyN = s.copyN := rfl
@[simp] theorem setRadio_copyRssi (r : RadioState) (s : State) : (setRadio r s).copyRssi = s.copyRssi := rfl
@[simp] theorem setRadio_copyLqi (r : RadioState) (s : State) : (setRadio r s).copyLqi = s.copyLqi := rfl
@[simp] theorem setRadio_copyIdx (r : RadioState) (s : State) : (setRadio r s).copyIdx = s.copyIdx := rfl
@[simp] theorem setRadio_evtPin (r : RadioState) (s : State) : (setRadio r s).evtPin = s.evtPin := rfl
@[simp] theorem setRadio_port (r : RadioState) (s : State) : (setRadio r s).port = s.port := rfl
@[simp] theorem setRadio_answers (r : RadioState) (s : State) : (setRadio r s).answers = s.answers := rfl
@[simp] theorem setRadio_draws (r : RadioState) (s : State) : (setRadio r s).draws = s.draws := rfl
@[simp] theorem setRadio_upperPull (r : RadioState) (s : State) : (setRadio r s).upperPull = s.upperPull := rfl
@[simp] theorem setRadio_sched (r : RadioState) (s : State) : (setRadio r s).sched = s.sched := rfl
@[simp] theorem setRadio_hostOut (r : RadioState) (s : State) : (setRadio r s).hostOut = s.hostOut := rfl
@[simp] theorem setRadio_busTrace (r : RadioState) (s : State) : (setRadio r s).busTrace = s.busTrace := rfl
@[simp] theorem setRadio_events (r : RadioState) (s : State) : (setRadio r s).events = s.events := rfl
@[simp] theorem setRadio_upperCopies (r : RadioState) (s : State) : (setRadio r s).upperCopies = s.upperCopies := rfl
@[simp] theorem setRadio_params (r : RadioState) (s : State) : (setRadio r s).params = s.params := rfl

/-! `irqDisable` -/

@[simp] theorem irqDisable_state (s : State) : (irqDisable s).state = s.state := rfl
@[simp] theorem irqDisable_nodeAddr (s : State) : (irqDisable s).nodeAddr = s.nodeAddr := rfl
@[simp] theorem irqDisable_channel (s : State) : (irqDisable s).channel = s.channel := rfl
@[simp] theorem irqDisable_irqEn (s : State) : (irqDisable s).irqEn = false := rfl
@[simp] theorem irqDisable_irqPend (s : State) : (irqDisable s).irqPend = s.irqPend := rfl
@[simp] theorem irqDisable_pinPrev (s : State) : (irqDisable s).pinPrev = s.pinPrev := rfl
@[simp] theorem irqDisable_txFault (s : State) : (irqDisable s).txFault = s.txFault := rfl
@[simp] theorem irqDisable_txBuf (s : State) : (irqDisable s).txBuf = s.txBuf := rfl
@[simp] theorem irqDisable_txLen (s : State) : (irqDisable s).txLen = s.txLen := rfl
@[simp] theorem irqDisable_rxBuf (s : State) : (irqDisable s).rxBuf = s.rxBuf := rfl
@[simp] theorem irqDisable_rxLen (s : State) : (irqDisable s).rxLen = s.rxLen := rfl
@[simp] theorem irqDisable_rxRssi (s : State) : (irqDisable s).rxRssi = s.rxRssi := rfl
@[simp] theorem irqDisable_rxLqi (s : State) : (irqDisable s).rxLqi = s.rxLqi := rfl
@[simp] theorem irqDisable_statRx (s : State) : (irqDisable s).statRx = s.statRx := rfl
@[simp] theorem irqDisable_statCrcFail (s : State) : (irqDisable s).statCrcFail = s.statCrcFail := rfl
@[simp] theorem irqDisable_statRxWhileTx (s : State) : (irqDisable s).statRxWhileTx = s.statRxWhileTx := rfl
@[simp] theorem irqDisable_statTx (s : State) : (irqDisable s).statTx = s.statTx := rfl
@[simp] theorem irqDisable_pos (s : State) : (irqDisable s).pos = s.pos := rfl
@[simp] theorem irqDisable_pollK (s : State) : (irqDisable s).pollK = s.pollK := rfl
@[simp] theorem irqDisable_retry (s : State) : (irqDisable s).retry = s.retry := rfl
@[simp] theorem irqDisable_hostIn (s : State) : (irqDisable s).hostIn = s.hostIn := rfl
@[simp] theorem irqDisable_stamp (s : State) : (irqDisable s).stamp = s.stamp := rfl
@[simp] theorem irqDisable_copyN (s : State) : (irqDisable s).copyN = s.copyN := rfl
@[simp] theorem irqDisable_copyRssi (s : State) : (irqDisable s).copyRssi = s.copyRssi := rfl
@[simp] theorem irqDisable_copyLqi (s : State) : (irqDisable s).copyLqi = s.copyLqi := rfl
@[simp] theorem irqDisable_copyIdx (s : State) : (irqDisable s).copyIdx = s.copyIdx := rfl
@[simp] theorem irqDisable_evtPin (s : State) : (irqDisable s).evtPin = s.evtPin := rfl
@[simp] theorem irqDisable_port (s : State) : (irqDisable s).port = s.port := rfl
@[simp] theorem irqDisable_answers (s : State) : (irqDisable s).answers = s.answers := rfl
@[simp] theorem irqDisable_draws (s : State) : (irqDisable s).draws = s.draws := rfl
@[simp] theorem irqDisable_upperPull (s : State) : (irqDisable s).upperPull = s.upperPull := rfl
@[simp] theorem irqDisable_sched (s : State) : (irqDisable s).sched = s.sched := rfl
@[simp] theorem irqDisable_hostOut (s : State) : (irqDisable s).hostOut = s.hostOut := rfl
@[simp] theorem irqDisable_busTrace (s : State) : (irqDisable s).busTrace = s.busTrace := rfl
@[simp] theorem irqDisable_events (s : State) : (irqDisable s).events = s.events := rfl
@[simp] theorem irqDisable_upperCopies (s : State) : (irqDisable s).upperCopies = s.upperCopies := rfl
@[simp] theorem irqDisable_params (s : State) : (irqDisable s).params = s.params := rfl

/-! `irqEnable` -/

@[simp] theorem irqEnable_state (s : State) : (irqEnable s).state = s.state := rfl
@[simp] theorem irqEnable_nodeAddr (s : State) : (irqEnable s).nodeAddr = s.nodeAddr := rfl
@[simp] theorem irqEnable_channel (s : State) : (irqEnable s).channel = s.channel := rfl
@[simp] theorem irqEnable_irqEn (s : State) : (irqEnable s).irqEn = true := rfl
@[simp] theorem irqEnable_irqPend (s : State) : (irqEnable s).irqPend = s.irqPend := rfl
@[simp] theorem irqEnable_pinPrev (s : State) : (irqEnable s).pinPrev = s.pinPrev := rfl
@[simp] theorem irqEnable_txFault (s : State) : (irqEnable s).txFault = s.txFault := rfl
@[simp] theorem irqEnable_txBuf (s : State) : (irqEnable s).txBuf = s.txBuf := rfl
@[simp] theorem irqEnable_txLen (s : State) : (irqEnable s).txLen = s.txLen := rfl
@[simp] theorem irqEnable_rxBuf (s : State) : (irqEnable s).rxBuf = s.rxBuf := rfl
@[simp] theorem irqEnable_rxLen (s : State) : (irqEnable s).rxLen = s.rxLen := rfl
@[simp] theorem irqEnable_rxRssi (s : State) : (irqEnable s).rxRssi = s.rxRssi := rfl
@[simp] theorem irqEnable_rxLqi (s : State) : (irqEnable s).rxLqi = s.rxLqi := rfl
@[simp] theorem irqEnable_statRx (s : State) : (irqEnable s).statRx = s.statRx := rfl
@[simp] theorem irqEnable_statCrcFail (s : State) : (irqEnable s).statCrcFail = s.statCrcFail := rfl
@[simp] theorem irqEnable_statRxWhileTx (s : State) : (irqEnable s).statRxWhileTx = s.statRxWhileTx := rfl
@[simp] theorem irqEnable_statTx (s : State) : (irqEnable s).statTx = s.statTx := rfl
@[simp] theorem irqEnable_pos (s : State) : (irqEnable s).pos = s.pos := rfl
@[simp] theorem irqEnable_pollK (s : State) : (irqEnable s).pollK = s.pollK := rfl
@[simp] theorem irqEnable_retry (s : State) : (irqEnable s).retry = s.retry := rfl
@[simp] theorem irqEnable_hostIn (s : State) : (irqEnable s).hostIn = s.hostIn := rfl
@[simp] theorem irqEnable_stamp (s : State) : (irqEnable s).stamp = s.stamp := rfl
@[simp] theorem irqEnable_copyN (s : State) : (irqEnable s).copyN = s.copyN := rfl
@[simp] theorem irqEnable_copyRssi (s : State) : (irqEnable s).copyRssi = s.copyRssi := rfl
@[simp] theorem irqEnable_copyLqi (s : State) : (irqEnable s).copyLqi = s.copyLqi := rfl
@[simp] theorem irqEnable_copyIdx (s : State) : (irqEnable s).copyIdx = s.copyIdx := rfl
@[simp] theorem irqEnable_evtPin (s : State) : (irqEnable s).evtPin = s.evtPin := rfl
@[simp] theorem irqEnable_port (s : State) : (irqEnable s).port = s.port := rfl
@[simp] theorem irqEnable_answers (s : State) : (irqEnable s).answers = s.answers := rfl
@[simp] theorem irqEnable_draws (s : State) : (irqEnable s).draws = s.draws := rfl
@[simp] theorem irqEnable_upperPull (s : State) : (irqEnable s).upperPull = s.upperPull := rfl
@[simp] theorem irqEnable_sched (s : State) : (irqEnable s).sched = s.sched := rfl
@[simp] theorem irqEnable_hostOut (s : State) : (irqEnable s).hostOut = s.hostOut := rfl
@[simp] theorem irqEnable_busTrace (s : State) : (irqEnable s).busTrace = s.busTrace := rfl
@[simp] theorem irqEnable_events (s : State) : (irqEnable s).events = s.events := rfl
@[simp] theorem irqEnable_upperCopies (s : State) : (irqEnable s).upperCopies = s.upperCopies := rfl
@[simp] theorem irqEnable_params (s : State) : (irqEnable s).params = s.params := rfl

/-! `clearPending` -/

@[simp] theorem clearPending_state (s : State) : (clearPending s).state = s.state := rfl
@[simp] theorem clearPending_nodeAddr (s : State) : (clearPending s).nodeAddr = s.nodeAddr := rfl
@[simp] theorem clearPending_channel (s : State) : (clearPending s).channel = s.channel := rfl
@[simp] theorem clearPending_irqEn (s : State) : (clearPending s).irqEn = s.irqEn := rfl
@[simp] theorem clearPending_irqPend (s : State) : (clearPending s).irqPend = false := rfl
@[simp] theorem clearPending_pinPrev (s : State) : (clearPending s).pinPrev = s.pinPrev := rfl
@[simp] theorem clearPending_txFault (s : State) : (clearPending s).txFault = s.txFault := rfl
@[simp] theorem clearPending_txBuf (s : State) : (clearPending s).txBuf = s.txBuf := rfl
@[simp] theorem clearPending_txLen (s : State) : (clearPending s).txLen = s.txLen := rfl
@[simp] theorem clearPending_rxBuf (s : State) : (clearPending s).rxBuf = s.rxBuf := rfl
@[simp] theorem clearPending_rxLen (s : State) : (clearPending s).rxLen = s.rxLen := rfl
@[simp] theorem clearPending_rxRssi (s : State) : (clearPending s).rxRssi = s.rxRssi := rfl
@[simp] theorem clearPending_rxLqi (s : State) : (clearPending s).rxLqi = s.rxLqi := rfl
@[simp] theorem clearPending_statRx (s : State) : (clearPending s).statRx = s.statRx := rfl
@[simp] theorem clearPending_statCrcFail (s : State) : (clearPending s).statCrcFail = s.statCrcFail := rfl
@[simp] theorem clearPending_statRxWhileTx (s : State) : (clearPending s).statRxWhileTx = s.statRxWhileTx := rfl
@[simp] theorem clearPending_statTx (s : State) : (clearPending s).statTx = s.statTx := rfl
@[simp] theorem clearPending_pos (s : State) : (clearPending s).pos = s.pos := rfl
@[simp] theorem clearPending_pollK (s : State) : (clearPending s).pollK = s.pollK := rfl
@[simp] theorem clearPending_retry (s : State) : (clearPending s).retry = s.retry := rfl
@[simp] theorem clearPending_hostIn (s : State) : (clearPending s).hostIn = s.hostIn := rfl
@[simp] theorem clearPending_stamp (s : State) : (clearPending s).stamp = s.stamp := rfl
@[simp] theorem clearPending_copyN (s : State) : (clearPending s).copyN = s.copyN := rfl
@[simp] theorem clearPending_copyRssi (s : State) : (clearPending s).copyRssi = s.copyRssi := rfl
@[simp] theorem clearPending_copyLqi (s : State) : (clearPending s).copyLqi = s.copyLqi := rfl
@[simp] theorem clearPending_copyIdx (s : State) : (clearPending s).copyIdx = s.copyIdx := rfl
@[simp] theorem clearPending_evtPin (s : State) : (clearPending s).evtPin = s.evtPin := rfl
@[simp] theorem clearPending_port (s : State) : (clearPending s).port = s.port := rfl
@[simp] theorem clearPending_answers (s : State) : (clearPending s).answers = s.answers := rfl
@[simp] theorem clearPending_draws (s : State) : (clearPending s).draws = s.draws := rfl
@[simp] theorem clearPending_upperPull (s : State) : (clearPending s).upperPull = s.upperPull := rfl
@[simp] theorem clearPending_sched (s : State) : (clearPending s).sched = s.sched := rfl
@[simp] theorem clearPending_hostOut (s : State) : (clearPending s).hostOut = s.hostOut := rfl
@[simp] theorem clearPending_busTrace (s : State) : (clearPending s).busTrace = s.busTrace := rfl
@[simp] theorem clearPending_events (s : State) : (clearPending s).events = s.events := rfl
@[simp] theorem clearPending_upperCopies (s : State) : (clearPending s).upperCopies = s.upperCopies := rfl
@[simp] theorem clearPending_params (s : State) : (clearPending s).params = s.params := rfl

/-! `setTxFault` -/

@[simp] theorem setTxFault_state (s : State) : (setTxFault s).state = s.state := rfl
@[simp] theorem setTxFault_nodeAddr (s : State) : (setTxFault s).nodeAddr = s.nodeAddr := rfl
@[simp] theorem setTxFault_channel (s : State) : (setTxFault s).channel = s.channel := rfl
@[simp] theorem setTxFault_irqEn (s : State) : (setTxFault s).irqEn = s.irqEn := rfl
@[simp] theorem setTxFault_irqPend (s : State) : (setTxFault s).irqPend = s.irqPend := rfl
@[simp] theorem setTxFault_pinPrev (s : State) : (setTxFault s).pinPrev = s.pinPrev := rfl
@[simp] theorem setTxFault_txFault (s : State) : (setTxFault s).txFault = true := rfl
@[simp] theorem setTxFault_txBuf (s : State) : (setTxFault s).txBuf = s.txBuf := rfl
@[simp] theorem setTxFault_txLen (s : State) : (setTxFault s).txLen = s.txLen := rfl
@[simp] theorem setTxFault_rxBuf (s : State) : (setTxFault s).rxBuf = s.rxBuf := rfl
@[simp] theorem setTxFault_rxLen (s : State) : (setTxFault s).rxLen = s.rxLen := rfl
@[simp] theorem setTxFault_rxRssi (s : State) : (setTxFault s).rxRssi = s.rxRssi := rfl
@[simp] theorem setTxFault_rxLqi (s : State) : (setTxFault s).rxLqi = s.rxLqi := rfl
@[simp] theorem setTxFault_statRx (s : State) : (setTxFault s).statRx = s.statRx := rfl
@[simp] theorem setTxFault_statCrcFail (s : State) : (setTxFault s).statCrcFail = s.statCrcFail := rfl
@[simp] theorem setTxFault_statRxWhileTx (s : State) : (setTxFault s).statRxWhileTx = s.statRxWhileTx := rfl
@[simp] theorem setTxFault_statTx (s : State) : (setTxFault s).statTx = s.statTx := rfl
@[simp] theorem setTxFault_pos (s : State) : (setTxFault s).pos = s.pos := rfl
@[simp] theorem setTxFault_pollK (s : State) : (setTxFault s).pollK = s.pollK := rfl
@[simp] theorem setTxFault_retry (s : State) : (setTxFault s).retry = s.retry := rfl
@[simp] theorem setTxFault_hostIn (s : State) : (setTxFault s).hostIn = s.hostIn := rfl
@[simp] theorem setTxFault_stamp (s : State) : (setTxFault s).stamp = s.stamp := rfl
@[simp] theorem setTxFault_copyN (s : State) : (setTxFault s).copyN = s.copyN := rfl
@[simp] theorem setTxFault_copyRssi (s : State) : (setTxFault s).copyRssi = s.copyRssi := rfl
@[simp] theorem setTxFault_copyLqi (s : State) : (setTxFault s).copyLqi = s.copyLqi := rfl
@[simp] theorem setTxFault_copyIdx (s : State) : (setTxFault s).copyIdx = s.copyIdx := rfl
@[simp] theorem setTxFault_evtPin (s : State) : (setTxFault s).evtPin = s.evtPin := rfl
@[simp] theorem setTxFault_port (s : State) : (setTxFault s).port = s.port := rfl
@[simp] theorem setTxFault_answers (s : State) : (setTxFault s).answers = s.answers := rfl
@[simp] theorem setTxFault_draws (s : State) : (setTxFault s).draws = s.draws := rfl
@[simp] theorem setTxFault_upperPull (s : State) : (setTxFault s).upperPull = s.upperPull := rfl
@[simp] theorem setTxFault_sched (s : State) : (setTxFault s).sched = s.sched := rfl
@[simp] theorem setTxFault_hostOut (s : State) : (setTxFault s).hostOut = s.hostOut := rfl
@[simp] theorem setTxFault_busTrace (s : State) : (setTxFault s).busTrace = s.busTrace := rfl
@[simp] theorem setTxFault_events (s : State) : (setTxFault s).events = s.events := rfl
@[simp] theorem setTxFault_upperCopies (s : State) : (setTxFault s).upperCopies = s.upperCopies := rfl
@[simp] theorem setTxFault_params (s : State) : (setTxFault s).params = s.params := rfl

/-! `clearTxFault` -/

@[simp] theorem clearTxFault_state (s : State) : (clearTxFault s).state = s.state := rfl
@[simp] theorem clearTxFault_nodeAddr (s : State) : (clearTxFault s).nodeAddr = s.nodeAddr := rfl
@[simp] theorem clearTxFault_channel (s : State) : (clearTxFault s).channel = s.channel := rfl
@[simp] theorem clearTxFault_irqEn (s : State) : (clearTxFault s).irqEn = s.irqEn := rfl
@[simp] theorem clearTxFault_irqPend (s : State) : (clearTxFault s).irqPend = s.irqPend := rfl
@[simp] theorem clearTxFault_pinPrev (s : State) : (clearTxFault s).pinPrev = s.pinPrev := rfl
@[simp] theorem clearTxFault_txFault (s : State) : (clearTxFault s).txFault = false := rfl
@[simp] theorem clearTxFault_txBuf (s : State) : (clearTxFault s).txBuf = s.txBuf := rfl
@[simp] theorem clearTxFault_txLen (s : State) : (clearTxFault s).txLen = s.txLen := rfl
@[simp] theorem clearTxFault_rxBuf (s : State) : (clearTxFault s).rxBuf = s.rxBuf := rfl
@[simp] theorem clearTxFault_rxLen (s : State) : (clearTxFault s).rxLen = s.rxLen := rfl
@[simp] theorem clearTxFault_rxRssi (s : State) : (clearTxFault s).rxRssi = s.rxRssi := rfl
@[simp] theorem clearTxFault_rxLqi (s : State) : (clearTxFault s).rxLqi = s.rxLqi := rfl
@[simp] theorem clearTxFault_statRx (s : State) : (clearTxFault s).statRx = s.statRx := rfl
@[simp] theorem clearTxFault_statCrcFail (s : State) : (clearTxFault s).statCrcFail = s.statCrcFail := rfl
@[simp] theorem clearTxFault_statRxWhileTx (s : State) : (clearTxFault s).statRxWhileTx = s.statRxWhileTx := rfl
@[simp] theorem clearTxFault_statTx (s : State) : (clearTxFault s).statTx = s.statTx := rfl
@[simp] theorem clearTxFault_pos (s : State) : (clearTxFault s).pos = s.pos := rfl
@[simp] theorem clearTxFault_pollK (s : State) : (clearTxFault s).pollK = s.pollK := rfl
@[simp] theorem clearTxFault_retry (s : State) : (clearTxFault s).retry = s.retry := rfl
@[simp] theorem clearTxFault_hostIn (s : State) : (clearTxFault s).hostIn = s.hostIn := rfl
@[simp] theorem clearTxFault_stamp (s : State) : (clearTxFault s).stamp = s.stamp := rfl
@[simp] theorem clearTxFault_copyN (s : State) : (clearTxFault s).copyN = s.copyN := rfl
@[simp] theorem clearTxFault_copyRssi (s : State) : (clearTxFault s).copyRssi = s.copyRssi := rfl
@[simp] theorem clearTxFault_copyLqi (s : State) : (clearTxFault s).copyLqi = s.copyLqi := rfl
@[simp] theorem clearTxFault_copyIdx (s : State) : (clearTxFault s).copyIdx = s.copyIdx := rfl
@[simp] theorem clearTxFault_evtPin (s : State) : (clearTxFault s).evtPin = s.evtPin := rfl
@[simp] theorem clearTxFault_port (s : State) : (clearTxFault s).port = s.port := rfl
@[simp] theorem clearTxFault_answers (s : State) : (clearTxFault s).answers = s.answers := rfl
@[simp] theorem clearTxFault_draws (s : State) : (clearTxFault s).draws = s.draws := rfl
@[simp] theorem clearTxFault_upperPull (s : State) : (clearTxFault s).upperPull = s.upperPull := rfl
@[simp] theorem clearTxFault_sched (s : State) : (clearTxFault s).sched = s.sched := rfl
@[simp] theorem clearTxFault_hostOut (s : State) : (clearTxFault s).hostOut = s.hostOut := rfl
@[simp] theorem clearTxFault_busTrace (s : State) : (clearTxFault s).busTrace = s.busTrace := rfl
@[simp] theorem clearTxFault_events (s : State) : (clearTxFault s).events = s.events := rfl
@[simp] theorem clearTxFault_upperCopies (s : State) : (clearTxFault s).upperCopies = s.upperCopies := rfl
@[simp] theorem clearTxFault_params (s : State) : (clearTxFault s).params = s.params := rfl

/-! `dispatchEntry` -/

@[simp] theorem dispatchEntry_state (s : State) : (dispatchEntry s).state = s.state := rfl
@[simp] theorem dispatchEntry_nodeAddr (s : State) : (dispatchEntry s).nodeAddr = s.nodeAddr := rfl
@[simp] theorem dispatchEntry_channel (s : State) : (dispatchEntry s).channel = s.channel := rfl
@[simp] theorem dispatchEntry_irqEn (s : State) : (dispatchEntry s).irqEn = s.irqEn := rfl
@[simp] theorem dispatchEntry_irqPend (s : State) : (dispatchEntry s).irqPend = false := rfl
@[simp] theorem dispatchEntry_pinPrev (s : State) : (dispatchEntry s).pinPrev = s.pinPrev := rfl
@[simp] theorem dispatchEntry_txFault (s : State) : (dispatchEntry s).txFault = s.txFault := rfl
@[simp] theorem dispatchEntry_txBuf (s : State) : (dispatchEntry s).txBuf = s.txBuf := rfl
@[simp] theorem dispatchEntry_txLen (s : State) : (dispatchEntry s).txLen = s.txLen := rfl
@[simp] theorem dispatchEntry_rxBuf (s : State) : (dispatchEntry s).rxBuf = s.rxBuf := rfl
@[simp] theorem dispatchEntry_rxLen (s : State) : (dispatchEntry s).rxLen = s.rxLen := rfl
@[simp] theorem dispatchEntry_rxRssi (s : State) : (dispatchEntry s).rxRssi = s.rxRssi := rfl
@[simp] theorem dispatchEntry_rxLqi (s : State) : (dispatchEntry s).rxLqi = s.rxLqi := rfl
@[simp] theorem dispatchEntry_statRx (s : State) : (dispatchEntry s).statRx = s.statRx := rfl
@[simp] theorem dispatchEntry_statCrcFail (s : State) : (dispatchEntry s).statCrcFail = s.statCrcFail := rfl
@[simp] theorem dispatchEntry_statRxWhileTx (s : State) : (dispatchEntry s).statRxWhileTx = s.statRxWhileTx := rfl
@[simp] theorem dispatchEntry_statTx (s : State) : (dispatchEntry s).statTx = s.statTx := rfl
@[simp] theorem dispatchEntry_pos (s : State) : (dispatchEntry s).pos = s.pos := rfl
@[simp] theorem dispatchEntry_pollK (s : State) : (dispatchEntry s).pollK = s.pollK := rfl
@[simp] theorem dispatchEntry_retry (s : State) : (dispatchEntry s).retry = s.retry := rfl
@[simp] theorem dispatchEntry_hostIn (s : State) : (dispatchEntry s).hostIn = s.hostIn := rfl
@[simp] theorem dispatchEntry_stamp (s : State) : (dispatchEntry s).stamp = s.stamp := rfl
@[simp] theorem dispatchEntry_copyN (s : State) : (dispatchEntry s).copyN = s.copyN := rfl
@[simp] theorem dispatchEntry_copyRssi (s : State) : (dispatchEntry s).copyRssi = s.copyRssi := rfl
@[simp] theorem dispatchEntry_copyLqi (s : State) : (dispatchEntry s).copyLqi = s.copyLqi := rfl
@[simp] theorem dispatchEntry_copyIdx (s : State) : (dispatchEntry s).copyIdx = s.copyIdx := rfl
@[simp] theorem dispatchEntry_evtPin (s : State) : (dispatchEntry s).evtPin = s.evtPin := rfl
@[simp] theorem dispatchEntry_port (s : State) : (dispatchEntry s).port = s.port := rfl
@[simp] theorem dispatchEntry_answers (s : State) : (dispatchEntry s).answers = s.answers := rfl
@[simp] theorem dispatchEntry_draws (s : State) : (dispatchEntry s).draws = s.draws := rfl
@[simp] theorem dispatchEntry_upperPull (s : State) : (dispatchEntry s).upperPull = s.upperPull := rfl
@[simp] theorem dispatchEntry_sched (s : State) : (dispatchEntry s).sched = s.sched := rfl
@[simp] theorem dispatchEntry_hostOut (s : State) : (dispatchEntry s).hostOut = s.hostOut := rfl
@[simp] theorem dispatchEntry_busTrace (s : State) : (dispatchEntry s).busTrace = s.busTrace := rfl
@[simp] theorem dispatchEntry_events (s : State) : (dispatchEntry s).events = s.events := rfl
@[simp] theorem dispatchEntry_upperCopies (s : State) : (dispatchEntry s).upperCopies = s.upperCopies := rfl
@[simp] theorem dispatchEntry_params (s : State) : (dispatchEntry s).params = s.params := rfl

/-! `pinChange` -/

@[simp] theorem pinChange_state (b : Bool) (s : State) : (pinChange b s).state = s.state := rfl
@[simp] theorem pinChange_nodeAddr (b : Bool) (s : State) : (pinChange b s).nodeAddr = s.nodeAddr := rfl
@[simp] theorem pinChange_channel (b : Bool) (s : State) : (pinChange b s).channel = s.channel := rfl
@[simp] theorem pinChange_irqEn (b : Bool) (s : State) : (pinChange b s).irqEn = s.irqEn := rfl
@[simp] theorem pinChange_irqPend (b : Bool) (s : State) : (pinChange b s).irqPend = (s.irqPend || edgeLatches b s) := rfl
@[simp] theorem pinChange_pinPrev (b : Bool) (s : State) : (pinChange b s).pinPrev = b := rfl
@[simp] theorem pinChange_txFault (b : Bool) (s : State) : (pinChange b s).txFault = s.txFault := rfl
@[simp] theorem pinChange_txBuf (b : Bool) (s : State) : (pinChange b s).txBuf = s.txBuf := rfl
@[simp] theorem pinChange_txLen (b : Bool) (s : State) : (pinChange b s).txLen = s.txLen := rfl
@[simp] theorem pinChange_rxBuf (b : Bool) (s : State) : (pinChange b s).rxBuf = s.rxBuf := rfl
@[simp] theorem pinChange_rxLen (b : Bool) (s : State) : (pinChange b s).rxLen = s.rxLen := rfl
@[simp] theorem pinChange_rxRssi (b : Bool) (s : State) : (pinChange b s).rxRssi = s.rxRssi := rfl
@[simp] theorem pinChange_rxLqi (b : Bool) (s : State) : (pinChange b s).rxLqi = s.rxLqi := rfl
@[simp] theorem pinChange_statRx (b : Bool) (s : State) : (pinChange b s).statRx = s.statRx := rfl
@[simp] theorem pinChange_statCrcFail (b : Bool) (s : State) : (pinChange b s).statCrcFail = s.statCrcFail := rfl
@[simp] theorem pinChange_statRxWhileTx (b : Bool) (s : State) : (pinChange b s).statRxWhileTx = s.statRxWhileTx := rfl
@[simp] theorem pinChange_statTx (b : Bool) (s : State) : (pinChange b s).statTx = s.statTx := rfl
@[simp] theorem pinChange_pos (b : Bool) (s : State) : (pinChange b s).pos = s.pos := rfl
@[simp] theorem pinChange_pollK (b : Bool) (s : State) : (pinChange b s).pollK = s.pollK := rfl
@[simp] theorem pinChange_retry (b : Bool) (s : State) : (pinChange b s).retry = s.retry := rfl
@[simp] theorem pinChange_hostIn (b : Bool) (s : State) : (pinChange b s).hostIn = s.hostIn := rfl
@[simp] theorem pinChange_stamp (b : Bool) (s : State) : (pinChange b s).stamp = s.stamp := rfl
@[simp] theorem pinChange_copyN (b : Bool) (s : State) : (pinChange b s).copyN = s.copyN := rfl
@[simp] theorem pinChange_copyRssi (b : Bool) (s : State) : (pinChange b s).copyRssi = s.copyRssi := rfl
@[simp] theorem pinChange_copyLqi (b : Bool) (s : State) : (pinChange b s).copyLqi = s.copyLqi := rfl
@[simp] theorem pinChange_copyIdx (b : Bool) (s : State) : (pinChange b s).copyIdx = s.copyIdx := rfl
@[simp] theorem pinChange_evtPin (b : Bool) (s : State) : (pinChange b s).evtPin = b := rfl
@[simp] theorem pinChange_port (b : Bool) (s : State) : (pinChange b s).port = s.port := rfl
@[simp] theorem pinChange_answers (b : Bool) (s : State) : (pinChange b s).answers = s.answers := rfl
@[simp] theorem pinChange_draws (b : Bool) (s : State) : (pinChange b s).draws = s.draws := rfl
@[simp] theorem pinChange_upperPull (b : Bool) (s : State) : (pinChange b s).upperPull = s.upperPull := rfl
@[simp] theorem pinChange_sched (b : Bool) (s : State) : (pinChange b s).sched = s.sched := rfl
@[simp] theorem pinChange_hostOut (b : Bool) (s : State) : (pinChange b s).hostOut = s.hostOut := rfl
@[simp] theorem pinChange_busTrace (b : Bool) (s : State) : (pinChange b s).busTrace = s.busTrace := rfl
@[simp] theorem pinChange_events (b : Bool) (s : State) : (pinChange b s).events = s.events := rfl
@[simp] theorem pinChange_upperCopies (b : Bool) (s : State) : (pinChange b s).upperCopies = s.upperCopies := rfl
@[simp] theorem pinChange_params (b : Bool) (s : State) : (pinChange b s).params = s.params := rfl

/-! `strobe` -/

@[simp] theorem strobe_state (c : Byte) (s : State) : (strobe c s).state = s.state := rfl
@[simp] theorem strobe_nodeAddr (c : Byte) (s : State) : (strobe c s).nodeAddr = s.nodeAddr := rfl
@[simp] theorem strobe_channel (c : Byte) (s : State) : (strobe c s).channel = s.channel := rfl
@[simp] theorem strobe_irqEn (c : Byte) (s : State) : (strobe c s).irqEn = s.irqEn := rfl
@[simp] theorem strobe_irqPend (c : Byte) (s : State) : (strobe c s).irqPend = s.irqPend := rfl
@[simp] theorem strobe_pinPrev (c : Byte) (s : State) : (strobe c s).pinPrev = s.pinPrev := rfl
@[simp] theorem strobe_txFault (c : Byte) (s : State) : (strobe c s).txFault = s.txFault := rfl
@[simp] theorem strobe_txBuf (c : Byte) (s : State) : (strobe c s).txBuf = s.txBuf := rfl
@[simp] theorem strobe_txLen (c : Byte) (s : State) : (strobe c s).txLen = s.txLen := rfl
@[simp] theorem strobe_rxBuf (c : Byte) (s : State) : (strobe c s).rxBuf = s.rxBuf := rfl
@[simp] theorem strobe_rxLen (c : Byte) (s : State) : (strobe c s).rxLen = s.rxLen := rfl
@[simp] theorem strobe_rxRssi (c : Byte) (s : State) : (strobe c s).rxRssi = s.rxRssi := rfl
@[simp] theorem strobe_rxLqi (c : Byte) (s : State) : (strobe c s).rxLqi = s.rxLqi := rfl
@[simp] theorem strobe_statRx (c : Byte) (s : State) : (strobe c s).statRx = s.statRx := rfl
@[simp] theorem strobe_statCrcFail (c : Byte) (s : State) : (strobe c s).statCrcFail = s.statCrcFail := rfl
@[simp] theorem strobe_statRxWhileTx (c : Byte) (s : State) : (strobe c s).statRxWhileTx = s.statRxWhileTx := rfl
@[simp] theorem strobe_statTx (c : Byte) (s : State) : (strobe c s).statTx = s.statTx := rfl
@[simp] theorem strobe_pos (c : Byte) (s : State) : (strobe c s).pos = s.pos := rfl
@[simp] theorem strobe_pollK (c : Byte) (s : State) : (strobe c s).pollK = s.pollK := rfl
@[simp] theorem strobe_retry (c : Byte) (s : State) : (strobe c s).retry = s.retry := rfl
@[simp] theorem strobe_hostIn (c : Byte) (s : State) : (strobe c s).hostIn = s.hostIn := rfl
@[simp] theorem strobe_stamp (c : Byte) (s : State) : (strobe c s).stamp = s.stamp := rfl
@[simp] theorem strobe_copyN (c : Byte) (s : State) : (strobe c s).copyN = s.copyN := rfl
@[simp] theorem strobe_copyRssi (c : Byte) (s : State) : (strobe c s).copyRssi = s.copyRssi := rfl
@[simp] theorem strobe_copyLqi (c : Byte) (s : State) : (strobe c s).copyLqi = s.copyLqi := rfl
@[simp] theorem strobe_copyIdx (c : Byte) (s : State) : (strobe c s).copyIdx = s.copyIdx := rfl
@[simp] theorem strobe_evtPin (c : Byte) (s : State) : (strobe c s).evtPin = s.evtPin := rfl
@[simp] theorem strobe_port (c : Byte) (s : State) : (strobe c s).port = s.port := rfl
@[simp] theorem strobe_answers (c : Byte) (s : State) : (strobe c s).answers = s.answers := rfl
@[simp] theorem strobe_draws (c : Byte) (s : State) : (strobe c s).draws = s.draws := rfl
@[simp] theorem strobe_upperPull (c : Byte) (s : State) : (strobe c s).upperPull = s.upperPull := rfl
@[simp] theorem strobe_sched (c : Byte) (s : State) : (strobe c s).sched = s.sched := rfl
@[simp] theorem strobe_hostOut (c : Byte) (s : State) : (strobe c s).hostOut = s.hostOut := rfl
@[simp] theorem strobe_busTrace (c : Byte) (s : State) : (strobe c s).busTrace = s.busTrace ++ [.st c] := rfl
@[simp] theorem strobe_events (c : Byte) (s : State) : (strobe c s).events = s.events := rfl
@[simp] theorem strobe_upperCopies (c : Byte) (s : State) : (strobe c s).upperCopies = s.upperCopies := rfl
@[simp] theorem strobe_params (c : Byte) (s : State) : (strobe c s).params = s.params := rfl

/-! `busWrite` -/

@[simp] theorem busWrite_state (r v : Byte) (s : State) : (busWrite r v s).state = s.state := rfl
@[simp] theorem busWrite_nodeAddr (r v : Byte) (s : State) : (busWrite r v s).nodeAddr = s.nodeAddr := rfl
@[simp] theorem busWrite_channel (r v : Byte) (s : State) : (busWrite r v s).channel = s.channel := rfl
@[simp] theorem busWrite_irqEn (r v : Byte) (s : State) : (busWrite r v s).irqEn = s.irqEn := rfl
@[simp] theorem busWrite_irqPend (r v : Byte) (s : State) : (busWrite r v s).irqPend = s.irqPend := rfl
@[simp] theorem busWrite_pinPrev (r v : Byte) (s : State) : (busWrite r v s).pinPrev = s.pinPrev := rfl
@[simp] theorem busWrite_txFault (r v : Byte) (s : State) : (busWrite r v s).txFault = s.txFault := rfl
@[simp] theorem busWrite_txBuf (r v : Byte) (s : State) : (busWrite r v s).txBuf = s.txBuf := rfl
@[simp] theorem busWrite_txLen (r v : Byte) (s : State) : (busWrite r v s).txLen = s.txLen := rfl
@[simp] theorem busWrite_rxBuf (r v : Byte) (s : State) : (busWrite r v s).rxBuf = s.rxBuf := rfl
@[simp] theorem busWrite_rxLen (r v : Byte) (s : State) : (busWrite r v s).rxLen = s.rxLen := rfl
@[simp] theorem busWrite_rxRssi (r v : Byte) (s : State) : (busWrite r v s).rxRssi = s.rxRssi := rfl
@[simp] theorem busWrite_rxLqi (r v : Byte) (s : State) : (busWrite r v s).rxLqi = s.rxLqi := rfl
@[simp] theorem busWrite_statRx (r v : Byte) (s : State) : (busWrite r v s).statRx = s.statRx := rfl
@[simp] theorem busWrite_statCrcFail (r v : Byte) (s : State) : (busWrite r v s).statCrcFail = s.statCrcFail := rfl
@[simp] theorem busWrite_statRxWhileTx (r v : Byte) (s : State) : (busWrite r v s).statRxWhileTx = s.statRxWhileTx := rfl
@[simp] theorem busWrite_statTx (r v : Byte) (s : State) : (busWrite r v s).statTx = s.statTx := rfl
@[simp] theorem busWrite_pos (r v : Byte) (s : State) : (busWrite r v s).pos = s.pos := rfl
@[simp] theorem busWrite_pollK (r v : Byte) (s : State) : (busWrite r v s).pollK = s.pollK := rfl
@[simp] theorem busWrite_retry (r v : Byte) (s : State) : (busWrite r v s).retry = s.retry := rfl
@[simp] theorem busWrite_hostIn (r v : Byte) (s : State) : (busWrite r v s).hostIn = s.hostIn := rfl
@[simp] theorem busWrite_stamp (r v : Byte) (s : State) : (busWrite r v s).stamp = s.stamp := rfl
@[simp] theorem busWrite_copyN (r v : Byte) (s : State) : (busWrite r v s).copyN = s.copyN := rfl
@[simp] theorem busWrite_copyRssi (r v : Byte) (s : State) : (busWrite r v s).copyRssi = s.copyRssi := rfl
@[simp] theorem busWrite_copyLqi (r v : Byte) (s : State) : (busWrite r v s).copyLqi = s.copyLqi := rfl
@[simp] theorem busWrite_copyIdx (r v : Byte) (s : State) : (busWrite r v s).copyIdx = s.copyIdx := rfl
@[simp] theorem busWrite_evtPin (r v : Byte) (s : State) : (busWrite r v s).evtPin = s.evtPin := rfl
@[simp] theorem busWrite_port (r v : Byte) (s : State) : (busWrite r v s).port = s.port := rfl
@[simp] theorem busWrite_answers (r v : Byte) (s : State) : (busWrite r v s).answers = s.answers := rfl
@[simp] theorem busWrite_draws (r v : Byte) (s : State) : (busWrite r v s).draws = s.draws := rfl
@[simp] theorem busWrite_upperPull (r v : Byte) (s : State) : (busWrite r v s).upperPull = s.upperPull := rfl
@[simp] theorem busWrite_sched (r v : Byte) (s : State) : (busWrite r v s).sched = s.sched := rfl
@[simp] theorem busWrite_hostOut (r v : Byte) (s : State) : (busWrite r v s).hostOut = s.hostOut := rfl
@[simp] theorem busWrite_busTrace (r v : Byte) (s : State) : (busWrite r v s).busTrace = s.busTrace ++ [.wr r v] := rfl
@[simp] theorem busWrite_events (r v : Byte) (s : State) : (busWrite r v s).events = s.events := rfl
@[simp] theorem busWrite_upperCopies (r v : Byte) (s : State) : (busWrite r v s).upperCopies = s.upperCopies := rfl
@[simp] theorem busWrite_params (r v : Byte) (s : State) : (busWrite r v s).params = s.params := rfl

/-! `burstWrite` -/

@[simp] theorem burstWrite_state (r : Byte) (b : List Byte) (s : State) : (burstWrite r b s).state = s.state := rfl
@[simp] theorem burstWrite_nodeAddr (r : Byte) (b : List Byte) (s : State) : (burstWrite r b s).nodeAddr = s.nodeAddr := rfl
@[simp] theorem burstWrite_channel (r : Byte) (b : List Byte) (s : State) : (burstWrite r b s).channel = s.channel := rfl
@[simp] theorem burstWrite_irqEn (r : Byte) (b : List Byte) (s : State) : (burstWrite r b s).irqEn = s.irqEn := rfl
@[simp] theorem burstWrite_irqPend (r : Byte) (b : List Byte) (s : State) : (burstWrite r b s).irqPend = s.irqPend := rfl
@[simp] theorem burstWrite_pinPrev (r : Byte) (b : List Byte) (s : State) : (burstWrite r b s).pinPrev = s.pinPrev := rfl
@[simp] theorem burstWrite_txFault (r : Byte) (b : List Byte) (s : State) : (burstWrite r b s).txFault = s.txFault := rfl
@[simp] theorem burstWrite_txBuf (r : Byte) (b : List Byte) (s : State) : (burstWrite r b s).txBuf = s.txBuf := rfl
@[simp] theorem burstWrite_txLen (r : Byte) (b : List Byte) (s : State) : (burstWrite r b s).txLen = s.txLen := rfl
@[simp] theorem burstWrite_rxBuf (r : Byte) (b : List Byte) (s : State) : (burstWrite r b s).rxBuf = s.rxBuf := rfl
@[simp] theorem burstWrite_rxLen (r : Byte) (b : List Byte) (s : State) : (burstWrite r b s).rxLen = s.rxLen := rfl
@[simp] theorem burstWrite_rxRssi (r : Byte) (b : List Byte) (s : State) : (burstWrite r b s).rxRssi = s.rxRssi := rfl
@[simp] theorem burstWrite_rxLqi (r : Byte) (b : List Byte) (s : State) : (burstWrite r b s).rxLqi = s.rxLqi := rfl
@[simp] theorem burstWrite_statRx (r : Byte) (b : List Byte) (s : State) : (burstWrite r b s).statRx = s.statRx := rfl
@[simp] theorem burstWrite_statCrcFail (r : Byte) (b : List Byte) (s : State) : (burstWrite r b s).statCrcFail = s.statCrcFail := rfl
@[simp] theorem burstWrite_statRxWhileTx (r : Byte) (b : List Byte) (s : State) : (burstWrite r b s).statRxWhileTx = s.statRxWhileTx := rfl
@[simp] theorem burstWrite_statTx (r : Byte) (b : List Byte) (s : State) : (burstWrite r b s).statTx = s.statTx := rfl
@[simp] theorem burstWrite_pos (r : Byte) (b : List Byte) (s : State) : (burstWrite r b s).pos = s.pos := rfl
@[simp] theorem burstWrite_pollK (r : Byte) (b : List Byte) (s : State) : (burstWrite r b s).pollK = s.pollK := rfl
@[simp] theorem burstWrite_retry (r : Byte) (b : List Byte) (s : State) : (burstWrite r b s).retry = s.retry := rfl
@[simp] theorem burstWrite_hostIn (r : Byte) (b : List Byte) (s : State) : (burstWrite r b s).hostIn = s.hostIn := rfl
@[simp] theorem burstWrite_stamp (r : Byte) (b : List Byte) (s : State) : (burstWrite r b s).stamp = s.stamp := rfl
@[simp] theorem burstWrite_copyN (r : Byte) (b : List Byte) (s : State) : (burstWrite r b s).copyN = s.copyN := rfl
@[simp] theorem burstWrite_copyRssi (r : Byte) (b : List Byte) (s : State) : (burstWrite r b s).copyRssi = s.copyRssi := rfl
@[simp] theorem burstWrite_copyLqi (r : Byte) (b : List Byte) (s : State) : (burstWrite r b s).copyLqi = s.copyLqi := rfl
@[simp] theorem burstWrite_copyIdx (r : Byte) (b : List Byte) (s : State) : (burstWrite r b s).copyIdx = s.copyIdx := rfl
@[simp] theorem burstWrite_evtPin (r : Byte) (b : List Byte) (s : State) : (burstWrite r b s).evtPin = s.evtPin := rfl
@[simp] theorem burstWrite_port (r : Byte) (b : List Byte) (s : State) : (burstWrite r b s).port = s.port := rfl
@[simp] theorem burstWrite_answers (r : Byte) (b : List Byte) (s : State) : (burstWrite r b s).answers = s.answers := rfl
@[simp] theorem burstWrite_draws (r : Byte) (b : List Byte) (s : State) : (burstWrite r b s).draws = s.draws := rfl
@[simp] theorem burstWrite_upperPull (r : Byte) (b : List Byte) (s : State) : (burstWrite r b s).upperPull = s.upperPull := rfl
@[simp] theorem burstWrite_sched (r : Byte) (b : List Byte) (s : State) : (burstWrite r b s).sched = s.sched := rfl
@[simp] theorem burstWrite_hostOut (r : Byte) (b : List Byte) (s : State) : (burstWrite r b s).hostOut = s.hostOut := rfl
@[simp] theorem burstWrite_busTrace (r : Byte) (b : List Byte) (s : State) : (burstWrite r b s).busTrace = s.busTrace ++ [.bwr r b] := rfl
@[simp] theorem burstWrite_events (r : Byte) (b : List Byte) (s : State) : (burstWrite r b s).events = s.events := rfl
@[simp] theorem burstWrite_upperCopies (r : Byte) (b : List Byte) (s : State) : (burstWrite r b s).upperCopies = s.upperCopies := rfl
@[simp] theorem burstWrite_params (r : Byte) (b : List Byte) (s : State) : (burstWrite r b s).params = s.params := rfl

/-! `rearm` -/

@[simp] theorem rearm_state (s : State) : (rearm s).state = s.state := rfl
@[simp] theorem rearm_nodeAddr (s : State) : (rearm s).nodeAddr = s.nodeAddr := rfl
@[simp] theorem rearm_channel (s : State) : (rearm s).channel = s.channel := rfl
@[simp] theorem rearm_irqEn (s : State) : (rearm s).irqEn = s.irqEn := rfl
@[simp] theorem rearm_irqPend (s : State) : (rearm s).irqPend = s.irqPend := rfl
@[simp] theorem rearm_pinPrev (s : State) : (rearm s).pinPrev = s.pinPrev := rfl
@[simp] theorem rearm_txFault (s : State) : (rearm s).txFault = s.txFault := rfl
@[simp] theorem rearm_txBuf (s : State) : (rearm s).txBuf = s.txBuf := rfl
@[simp] theorem rearm_txLen (s : State) : (rearm s).txLen = s.txLen := rfl
@[simp] theorem rearm_rxBuf (s : State) : (rearm s).rxBuf = s.rxBuf := rfl
@[simp] theorem rearm_rxLen (s : State) : (rearm s).rxLen = s.rxLen := rfl
@[simp] theorem rearm_rxRssi (s : State) : (rearm s).rxRssi = s.rxRssi := rfl
@[simp] theorem rearm_rxLqi (s : State) : (rearm s).rxLqi = s.rxLqi := rfl
@[simp] theorem rearm_statRx (s : State) : (rearm s).statRx = s.statRx := rfl
@[simp] theorem rearm_statCrcFail (s : State) : (rearm s).statCrcFail = s.statCrcFail := rfl
@[simp] theorem rearm_statRxWhileTx (s : State) : (rearm s).statRxWhileTx = s.statRxWhileTx := rfl
@[simp] theorem rearm_statTx (s : State) : (rearm s).statTx = s.statTx := rfl
@[simp] theorem rearm_pos (s : State) : (rearm s).pos = s.pos := rfl
@[simp] theorem rearm_pollK (s : State) : (rearm s).pollK = s.pollK := rfl
@[simp] theorem rearm_retry (s : State) : (rearm s).retry = s.retry := rfl
@[simp] theorem rearm_hostIn (s : State) : (rearm s).hostIn = s.hostIn := rfl
@[simp] theorem rearm_stamp (s : State) : (rearm s).stamp = s.stamp := rfl
@[simp] theorem rearm_copyN (s : State) : (rearm s).copyN = s.copyN := rfl
@[simp] theorem rearm_copyRssi (s : State) : (rearm s).copyRssi = s.copyRssi := rfl
@[simp] theorem rearm_copyLqi (s : State) : (rearm s).copyLqi = s.copyLqi := rfl
@[simp] theorem rearm_copyIdx (s : State) : (rearm s).copyIdx = s.copyIdx := rfl
@[simp] theorem rearm_evtPin (s : State) : (rearm s).evtPin = s.evtPin := rfl
@[simp] theorem rearm_port (s : State) : (rearm s).port = s.port := rfl
@[simp] theorem rearm_answers (s : State) : (rearm s).answers = s.answers := rfl
@[simp] theorem rearm_draws (s : State) : (rearm s).draws = s.draws := rfl
@[simp] theorem rearm_upperPull (s : State) : (rearm s).upperPull = s.upperPull := rfl
@[simp] theorem rearm_sched (s : State) : (rearm s).sched = s.sched := rfl
@[simp] theorem rearm_hostOut (s : State) : (rearm s).hostOut = s.hostOut := rfl
@[simp] theorem rearm_busTrace (s : State) : (rearm s).busTrace = s.busTrace ++ [.st s.params.strobeRx] := rfl
@[simp] theorem rearm_events (s : State) : (rearm s).events = s.events := rfl
@[simp] theorem rearm_upperCopies (s : State) : (rearm s).upperCopies = s.upperCopies := rfl
@[simp] theorem rearm_params (s : State) : (rearm s).params = s.params := rfl

/-! `writeHostOut` -/

@[simp] theorem writeHostOut_state (a : Nat) (b : List Byte) (s : State) : (writeHostOut a b s).state = s.state := rfl
@[simp] theorem writeHostOut_nodeAddr (a : Nat) (b : List Byte) (s : State) : (writeHostOut a b s).nodeAddr = s.nodeAddr := rfl
@[simp] theorem writeHostOut_channel (a : Nat) (b : List Byte) (s : State) : (writeHostOut a b s).channel = s.channel := rfl
@[simp] theorem writeHostOut_irqEn (a : Nat) (b : List Byte) (s : State) : (writeHostOut a b s).irqEn = s.irqEn := rfl
@[simp] theorem writeHostOut_irqPend (a : Nat) (b : List Byte) (s : State) : (writeHostOut a b s).irqPend = s.irqPend := rfl
@[simp] theorem writeHostOut_pinPrev (a : Nat) (b : List Byte) (s : State) : (writeHostOut a b s).pinPrev = s.pinPrev := rfl
@[simp] theorem writeHostOut_txFault (a : Nat) (b : List Byte) (s : State) : (writeHostOut a b s).txFault = s.txFault := rfl
@[simp] theorem writeHostOut_txBuf (a : Nat) (b : List Byte) (s : State) : (writeHostOut a b s).txBuf = s.txBuf := rfl
@[simp] theorem writeHostOut_txLen (a : Nat) (b : List Byte) (s : State) : (writeHostOut a b s).txLen = s.txLen := rfl
@[simp] theorem writeHostOut_rxBuf (a : Nat) (b : List Byte) (s : State) : (writeHostOut a b s).rxBuf = s.rxBuf := rfl
@[simp] theorem writeHostOut_rxLen (a : Nat) (b : List Byte) (s : State) : (writeHostOut a b s).rxLen = s.rxLen := rfl
@[simp] theorem writeHostOut_rxRssi (a : Nat) (b : List Byte) (s : State) : (writeHostOut a b s).rxRssi = s.rxRssi := rfl
@[simp] theorem writeHostOut_rxLqi (a : Nat) (b : List Byte) (s : State) : (writeHostOut a b s).rxLqi = s.rxLqi := rfl
@[simp] theorem writeHostOut_statRx (a : Nat) (b : List Byte) (s : State) : (writeHostOut a b s).statRx = s.statRx := rfl
@[simp] theorem writeHostOut_statCrcFail (a : Nat) (b : List Byte) (s : State) : (writeHostOut a b s).statCrcFail = s.statCrcFail := rfl
@[simp] theorem writeHostOut_statRxWhileTx (a : Nat) (b : List Byte) (s : State) : (writeHostOut a b s).statRxWhileTx = s.statRxWhileTx := rfl
@[simp] theorem writeHostOut_statTx (a : Nat) (b : List Byte) (s : State) : (writeHostOut a b s).statTx = s.statTx := rfl
@[simp] theorem writeHostOut_pos (a : Nat) (b : List Byte) (s : State) : (writeHostOut a b s).pos = s.pos := rfl
@[simp] theorem writeHostOut_pollK (a : Nat) (b : List Byte) (s : State) : (writeHostOut a b s).pollK = s.pollK := rfl
@[simp] theorem writeHostOut_retry (a : Nat) (b : List Byte) (s : State) : (writeHostOut a b s).retry = s.retry := rfl
@[simp] theorem writeHostOut_hostIn (a : Nat) (b : List Byte) (s : State) : (writeHostOut a b s).hostIn = s.hostIn := rfl
@[simp] theorem writeHostOut_stamp (a : Nat) (b : List Byte) (s : State) : (writeHostOut a b s).stamp = s.stamp := rfl
@[simp] theorem writeHostOut_copyN (a : Nat) (b : List Byte) (s : State) : (writeHostOut a b s).copyN = s.copyN := rfl
@[simp] theorem writeHostOut_copyRssi (a : Nat) (b : List Byte) (s : State) : (writeHostOut a b s).copyRssi = s.copyRssi := rfl
@[simp] theorem writeHostOut_copyLqi (a : Nat) (b : List Byte) (s : State) : (writeHostOut a b s).copyLqi = s.copyLqi := rfl
@[simp] theorem writeHostOut_copyIdx (a : Nat) (b : List Byte) (s : State) : (writeHostOut a b s).copyIdx = s.copyIdx := rfl
@[simp] theorem writeHostOut_evtPin (a : Nat) (b : List Byte) (s : State) : (writeHostOut a b s).evtPin = s.evtPin := rfl
@[simp] theorem writeHostOut_port (a : Nat) (b : List Byte) (s : State) : (writeHostOut a b s).port = s.port := rfl
@[simp] theorem writeHostOut_answers (a : Nat) (b : List Byte) (s : State) : (writeHostOut a b s).answers = s.answers := rfl
@[simp] theorem writeHostOut_draws (a : Nat) (b : List Byte) (s : State) : (writeHostOut a b s).draws = s.draws := rfl
@[simp] theorem writeHostOut_upperPull (a : Nat) (b : List Byte) (s : State) : (writeHostOut a b s).upperPull = s.upperPull := rfl
@[simp] theorem writeHostOut_sched (a : Nat) (b : List Byte) (s : State) : (writeHostOut a b s).sched = s.sched := rfl
@[simp] theorem writeHostOut_hostOut (a : Nat) (b : List Byte) (s : State) : (writeHostOut a b s).hostOut = s.hostOut.writeBytes a b := rfl
@[simp] theorem writeHostOut_busTrace (a : Nat) (b : List Byte) (s : State) : (writeHostOut a b s).busTrace = s.busTrace := rfl
@[simp] theorem writeHostOut_events (a : Nat) (b : List Byte) (s : State) : (writeHostOut a b s).events = s.events := rfl
@[simp] theorem writeHostOut_upperCopies (a : Nat) (b : List Byte) (s : State) : (writeHostOut a b s).upperCopies = s.upperCopies := rfl
@[simp] theorem writeHostOut_params (a : Nat) (b : List Byte) (s : State) : (writeHostOut a b s).params = s.params := rfl

/-! `countSleep` -/

@[simp] theorem countSleep_state (s : State) : (countSleep s).state = s.state := rfl
@[simp] theorem countSleep_nodeAddr (s : State) : (countSleep s).nodeAddr = s.nodeAddr := rfl
@[simp] theorem countSleep_channel (s : State) : (countSleep s).channel = s.channel := rfl
@[simp] theorem countSleep_irqEn (s : State) : (countSleep s).irqEn = s.irqEn := rfl
@[simp] theorem countSleep_irqPend (s : State) : (countSleep s).irqPend = s.irqPend := rfl
@[simp] theorem countSleep_pinPrev (s : State) : (countSleep s).pinPrev = s.pinPrev := rfl
@[simp] theorem countSleep_txFault (s : State) : (countSleep s).txFault = s.txFault := rfl
@[simp] theorem countSleep_txBuf (s : State) : (countSleep s).txBuf = s.txBuf := rfl
@[simp] theorem countSleep_txLen (s : State) : (countSleep s).txLen = s.txLen := rfl
@[simp] theorem countSleep_rxBuf (s : State) : (countSleep s).rxBuf = s.rxBuf := rfl
@[simp] theorem countSleep_rxLen (s : State) : (countSleep s).rxLen = s.rxLen := rfl
@[simp] theorem countSleep_rxRssi (s : State) : (countSleep s).rxRssi = s.rxRssi := rfl
@[simp] theorem countSleep_rxLqi (s : State) : (countSleep s).rxLqi = s.rxLqi := rfl
@[simp] theorem countSleep_statRx (s : State) : (countSleep s).statRx = s.statRx := rfl
@[simp] theorem countSleep_statCrcFail (s : State) : (countSleep s).statCrcFail = s.statCrcFail := rfl
@[simp] theorem countSleep_statRxWhileTx (s : State) : (countSleep s).statRxWhileTx = s.statRxWhileTx := rfl
@[simp] theorem countSleep_statTx (s : State) : (countSleep s).statTx = s.statTx := rfl
@[simp] theorem countSleep_pos (s : State) : (countSleep s).pos = s.pos := rfl
@[simp] theorem countSleep_pollK (s : State) : (countSleep s).pollK = s.pollK + 1 := rfl
@[simp] theorem countSleep_retry (s : State) : (countSleep s).retry = s.retry := rfl
@[simp] theorem countSleep_hostIn (s : State) : (countSleep s).hostIn = s.hostIn := rfl
@[simp] theorem countSleep_stamp (s : State) : (countSleep s).stamp = s.stamp := rfl
@[simp] theorem countSleep_copyN (s : State) : (countSleep s).copyN = s.copyN := rfl
@[simp] theorem countSleep_copyRssi (s : State) : (countSleep s).copyRssi = s.copyRssi := rfl
@[simp] theorem countSleep_copyLqi (s : State) : (countSleep s).copyLqi = s.copyLqi := rfl
@[simp] theorem countSleep_copyIdx (s : State) : (countSleep s).copyIdx = s.copyIdx := rfl
@[simp] theorem countSleep_evtPin (s : State) : (countSleep s).evtPin = s.evtPin := rfl
@[simp] theorem countSleep_port (s : State) : (countSleep s).port = s.port := rfl
@[simp] theorem countSleep_answers (s : State) : (countSleep s).answers = s.answers := rfl
@[simp] theorem countSleep_draws (s : State) : (countSleep s).draws = s.draws := rfl
@[simp] theorem countSleep_upperPull (s : State) : (countSleep s).upperPull = s.upperPull := rfl
@[simp] theorem countSleep_sched (s : State) : (countSleep s).sched = s.sched := rfl
@[simp] theorem countSleep_hostOut (s : State) : (countSleep s).hostOut = s.hostOut := rfl
@[simp] theorem countSleep_busTrace (s : State) : (countSleep s).busTrace = s.busTrace := rfl
@[simp] theorem countSleep_events (s : State) : (countSleep s).events = s.events := rfl
@[simp] theorem countSleep_upperCopies (s : State) : (countSleep s).upperCopies = s.upperCopies := rfl
@[simp] theorem countSleep_params (s : State) : (countSleep s).params = s.params := rfl

/-! `startPoll` -/

@[simp] theorem startPoll_state (s : State) : (startPoll s).state = s.state := rfl
@[simp] theorem startPoll_nodeAddr (s : State) : (startPoll s).nodeAddr = s.nodeAddr := rfl
@[simp] theorem startPoll_channel (s : State) : (startPoll s).channel = s.channel := rfl
@[simp] theorem startPoll_irqEn (s : State) : (startPoll s).irqEn = s.irqEn := rfl
@[simp] theorem startPoll_irqPend (s : State) : (startPoll s).irqPend = s.irqPend := rfl
@[simp] theorem startPoll_pinPrev (s : State) : (startPoll s).pinPrev = s.pinPrev := rfl
@[simp] theorem startPoll_txFault (s : State) : (startPoll s).txFault = s.txFault := rfl
@[simp] theorem startPoll_txBuf (s : State) : (startPoll s).txBuf = s.txBuf := rfl
@[simp] theorem startPoll_txLen (s : State) : (startPoll s).txLen = s.txLen := rfl
@[simp] theorem startPoll_rxBuf (s : State) : (startPoll s).rxBuf = s.rxBuf := rfl
@[simp] theorem startPoll_rxLen (s : State) : (startPoll s).rxLen = s.rxLen := rfl
@[simp] theorem startPoll_rxRssi (s : State) : (startPoll s).rxRssi = s.rxRssi := rfl
@[simp] theorem startPoll_rxLqi (s : State) : (startPoll s).rxLqi = s.rxLqi := rfl
@[simp] theorem startPoll_statRx (s : State) : (startPoll s).statRx = s.statRx := rfl
@[simp] theorem startPoll_statCrcFail (s : State) : (startPoll s).statCrcFail = s.statCrcFail := rfl
@[simp] theorem startPoll_statRxWhileTx (s : State) : (startPoll s).statRxWhileTx = s.statRxWhileTx := rfl
@[simp] theorem startPoll_statTx (s : State) : (startPoll s).statTx = s.statTx := rfl
@[simp] theorem startPoll_pos (s : State) : (startPoll s).pos = s.pos := rfl
@[simp] theorem startPoll_pollK (s : State) : (startPoll s).pollK = 0 := rfl
@[simp] theorem startPoll_retry (s : State) : (startPoll s).retry = false := rfl
@[simp] theorem startPoll_hostIn (s : State) : (startPoll s).hostIn = s.hostIn := rfl
@[simp] theorem startPoll_stamp (s : State) : (startPoll s).stamp = s.stamp := rfl
@[simp] theorem startPoll_copyN (s : State) : (startPoll s).copyN = s.copyN := rfl
@[simp] theorem startPoll_copyRssi (s : State) : (startPoll s).copyRssi = s.copyRssi := rfl
@[simp] theorem startPoll_copyLqi (s : State) : (startPoll s).copyLqi = s.copyLqi := rfl
@[simp] theorem startPoll_copyIdx (s : State) : (startPoll s).copyIdx = s.copyIdx := rfl
@[simp] theorem startPoll_evtPin (s : State) : (startPoll s).evtPin = s.evtPin := rfl
@[simp] theorem startPoll_port (s : State) : (startPoll s).port = s.port := rfl
@[simp] theorem startPoll_answers (s : State) : (startPoll s).answers = s.answers := rfl
@[simp] theorem startPoll_draws (s : State) : (startPoll s).draws = s.draws := rfl
@[simp] theorem startPoll_upperPull (s : State) : (startPoll s).upperPull = s.upperPull := rfl
@[simp] theorem startPoll_sched (s : State) : (startPoll s).sched = s.sched := rfl
@[simp] theorem startPoll_hostOut (s : State) : (startPoll s).hostOut = s.hostOut := rfl
@[simp] theorem startPoll_busTrace (s : State) : (startPoll s).busTrace = s.busTrace := rfl
@[simp] theorem startPoll_events (s : State) : (startPoll s).events = s.events := rfl
@[simp] theorem startPoll_upperCopies (s : State) : (startPoll s).upperCopies = s.upperCopies := rfl
@[simp] theorem startPoll_params (s : State) : (startPoll s).params = s.params := rfl

/-! `fillTxBuf` -/

@[simp] theorem fillTxBuf_state (s : State) : (fillTxBuf s).state = s.state := rfl
@[simp] theorem fillTxBuf_nodeAddr (s : State) : (fillTxBuf s).nodeAddr = s.nodeAddr := rfl
@[simp] theorem fillTxBuf_channel (s : State) : (fillTxBuf s).channel = s.channel := rfl
@[simp] theorem fillTxBuf_irqEn (s : State) : (fillTxBuf s).irqEn = s.irqEn := rfl
@[simp] theorem fillTxBuf_irqPend (s : State) : (fillTxBuf s).irqPend = s.irqPend := rfl
@[simp] theorem fillTxBuf_pinPrev (s : State) : (fillTxBuf s).pinPrev = s.pinPrev := rfl
@[simp] theorem fillTxBuf_txFault (s : State) : (fillTxBuf s).txFault = s.txFault := rfl
@[simp] theorem fillTxBuf_txBuf (s : State) : (fillTxBuf s).txBuf = stampBuf (s.txBuf.writeBytes 0 (s.hostIn.take s.size)) s.stamp := rfl
@[simp] theorem fillTxBuf_txLen (s : State) : (fillTxBuf s).txLen = u8 s.size := rfl
@[simp] theorem fillTxBuf_rxBuf (s : State) : (fillTxBuf s).rxBuf = s.rxBuf := rfl
@[simp] theorem fillTxBuf_rxLen (s : State) : (fillTxBuf s).rxLen = s.rxLen := rfl
@[simp] theorem fillTxBuf_rxRssi (s : State) : (fillTxBuf s).rxRssi = s.rxRssi := rfl
@[simp] theorem fillTxBuf_rxLqi (s : State) : (fillTxBuf s).rxLqi = s.rxLqi := rfl
@[simp] theorem fillTxBuf_statRx (s : State) : (fillTxBuf s).statRx = s.statRx := rfl
@[simp] theorem fillTxBuf_statCrcFail (s : State) : (fillTxBuf s).statCrcFail = s.statCrcFail := rfl
@[simp] theorem fillTxBuf_statRxWhileTx (s : State) : (fillTxBuf s).statRxWhileTx = s.statRxWhileTx := rfl
@[simp] theorem fillTxBuf_statTx (s : State) : (fillTxBuf s).statTx = s.statTx := rfl
@[simp] theorem fillTxBuf_pos (s : State) : (fillTxBuf s).pos = s.pos := rfl
@[simp] theorem fillTxBuf_pollK (s : State) : (fillTxBuf s).pollK = s.pollK := rfl
@[simp] theorem fillTxBuf_retry (s : State) : (fillTxBuf s).retry = s.retry := rfl
@[simp] theorem fillTxBuf_hostIn (s : State) : (fillTxBuf s).hostIn = s.hostIn := rfl
@[simp] theorem fillTxBuf_stamp (s : State) : (fillTxBuf s).stamp = s.stamp := rfl
@[simp] theorem fillTxBuf_copyN (s : State) : (fillTxBuf s).copyN = s.copyN := rfl
@[simp] theorem fillTxBuf_copyRssi (s : State) : (fillTxBuf s).copyRssi = s.copyRssi := rfl
@[simp] theorem fillTxBuf_copyLqi (s : State) : (fillTxBuf s).copyLqi = s.copyLqi := rfl
@[simp] theorem fillTxBuf_copyIdx (s : State) : (fillTxBuf s).copyIdx = s.copyIdx := rfl
@[simp] theorem fillTxBuf_evtPin (s : State) : (fillTxBuf s).evtPin = s.evtPin := rfl
@[simp] theorem fillTxBuf_port (s : State) : (fillTxBuf s).port = s.port := rfl
@[simp] theorem fillTxBuf_answers (s : State) : (fillTxBuf s).answers = s.answers := rfl
@[simp] theorem fillTxBuf_draws (s : State) : (fillTxBuf s).draws = s.draws := rfl
@[simp] theorem fillTxBuf_upperPull (s : State) : (fillTxBuf s).upperPull = s.upperPull := rfl
@[simp] theorem fillTxBuf_sched (s : State) : (fillTxBuf s).sched = s.sched := rfl
@[simp] theorem fillTxBuf_hostOut (s : State) : (fillTxBuf s).hostOut = s.hostOut := rfl
@[simp] theorem fillTxBuf_busTrace (s : State) : (fillTxBuf s).busTrace = s.busTrace := rfl
@[simp] theorem fillTxBuf_events (s : State) : (fillTxBuf s).events = s.events := rfl
@[simp] theorem fillTxBuf_upperCopies (s : State) : (fillTxBuf s).upperCopies = s.upperCopies := rfl
@[simp] theorem fillTxBuf_params (s : State) : (fillTxBuf s).params = s.params := rfl

/-! `burstTx` -/

@[simp] theorem burstTx_state (s : State) : (burstTx s).state = s.state := rfl
@[simp] theorem burstTx_nodeAddr (s : State) : (burstTx s).nodeAddr = s.nodeAddr := rfl
@[simp] theorem burstTx_channel (s : State) : (burstTx s).channel = s.channel := rfl
@[simp] theorem burstTx_irqEn (s : State) : (burstTx s).irqEn = s.irqEn := rfl
@[simp] theorem burstTx_irqPend (s : State) : (burstTx s).irqPend = s.irqPend := rfl
@[simp] theorem burstTx_pinPrev (s : State) : (burstTx s).pinPrev = s.pinPrev := rfl
@[simp] theorem burstTx_txFault (s : State) : (burstTx s).txFault = s.txFault := rfl
@[simp] theorem burstTx_txBuf (s : State) : (burstTx s).txBuf = s.txBuf := rfl
@[simp] theorem burstTx_txLen (s : State) : (burstTx s).txLen = s.txLen := rfl
@[simp] theorem burstTx_rxBuf (s : State) : (burstTx s).rxBuf = s.rxBuf := rfl
@[simp] theorem burstTx_rxLen (s : State) : (burstTx s).rxLen = s.rxLen := rfl
@[simp] theorem burstTx_rxRssi (s : State) : (burstTx s).rxRssi = s.rxRssi := rfl
@[simp] theorem burstTx_rxLqi (s : State) : (burstTx s).rxLqi = s.rxLqi := rfl
@[simp] theorem burstTx_statRx (s : State) : (burstTx s).statRx = s.statRx := rfl
@[simp] theorem burstTx_statCrcFail (s : State) : (burstTx s).statCrcFail = s.statCrcFail := rfl
@[simp] theorem burstTx_statRxWhileTx (s : State) : (burstTx s).statRxWhileTx = s.statRxWhileTx := rfl
@[simp] theorem burstTx_statTx (s : State) : (burstTx s).statTx = s.statTx := rfl
@[simp] theorem burstTx_pos (s : State) : (burstTx s).pos = s.pos := rfl
@[simp] theorem burstTx_pollK (s : State) : (burstTx s).pollK = s.pollK := rfl
@[simp] theorem burstTx_retry (s : State) : (burstTx s).retry = s.retry := rfl
@[simp] theorem burstTx_hostIn (s : State) : (burstTx s).hostIn = s.hostIn := rfl
@[simp] theorem burstTx_stamp (s : State) : (burstTx s).stamp = s.stamp := rfl
@[simp] theorem burstTx_copyN (s : State) : (burstTx s).copyN = s.copyN := rfl
@[simp] theorem burstTx_copyRssi (s : State) : (burstTx s).copyRssi = s.copyRssi := rfl
@[simp] theorem burstTx_copyLqi (s : State) : (burstTx s).copyLqi = s.copyLqi := rfl
@[simp] theorem burstTx_copyIdx (s : State) : (burstTx s).copyIdx = s.copyIdx := rfl
@[simp] theorem burstTx_evtPin (s : State) : (burstTx s).evtPin = s.evtPin := rfl
@[simp] theorem burstTx_port (s : State) : (burstTx s).port = s.port := rfl
@[simp] theorem burstTx_answers (s : State) : (burstTx s).answers = s.answers := rfl
@[simp] theorem burstTx_draws (s : State) : (burstTx s).draws = s.draws := rfl
@[simp] theorem burstTx_upperPull (s : State) : (burstTx s).upperPull = s.upperPull := rfl
@[simp] theorem burstTx_sched (s : State) : (burstTx s).sched = s.sched := rfl
@[simp] theorem burstTx_hostOut (s : State) : (burstTx s).hostOut = s.hostOut := rfl
@[simp] theorem burstTx_busTrace (s : State) : (burstTx s).busTrace = s.busTrace ++ [.bwr s.params.regTxFifo s.txBytes] := rfl
@[simp] theorem burstTx_events (s : State) : (burstTx s).events = s.events := rfl
@[simp] theorem burstTx_upperCopies (s : State) : (burstTx s).upperCopies = s.upperCopies := rfl
@[simp] theorem burstTx_params (s : State) : (burstTx s).params = s.params := rfl

/-! `commitTx` -/

@[simp] theorem commitTx_state (s : State) : (commitTx s).state = RadioState.transmitting.code := rfl
@[simp] theorem commitTx_nodeAddr (s : State) : (commitTx s).nodeAddr = s.nodeAddr := rfl
@[simp] theorem commitTx_channel (s : State) : (commitTx s).channel = s.channel := rfl
@[simp] theorem commitTx_irqEn (s : State) : (commitTx s).irqEn = true := rfl
@[simp] theorem commitTx_irqPend (s : State) : (commitTx s).irqPend = s.irqPend := rfl
@[simp] theorem commitTx_pinPrev (s : State) : (commitTx s).pinPrev = s.pinPrev := rfl
@[simp] theorem commitTx_txFault (s : State) : (commitTx s).txFault = s.txFault := rfl
@[simp] theorem commitTx_txBuf (s : State) : (commitTx s).txBuf = s.txBuf := rfl
@[simp] theorem commitTx_txLen (s : State) : (commitTx s).txLen = s.txLen := rfl
@[simp] theorem commitTx_rxBuf (s : State) : (commitTx s).rxBuf = s.rxBuf := rfl
@[simp] theorem commitTx_rxLen (s : State) : (commitTx s).rxLen = s.rxLen := rfl
@[simp] theorem commitTx_rxRssi (s : State) : (commitTx s).rxRssi = s.rxRssi := rfl
@[simp] theorem commitTx_rxLqi (s : State) : (commitTx s).rxLqi = s.rxLqi := rfl
@[simp] theorem commitTx_statRx (s : State) : (commitTx s).statRx = s.statRx := rfl
@[simp] theorem commitTx_statCrcFail (s : State) : (commitTx s).statCrcFail = s.statCrcFail := rfl
@[simp] theorem commitTx_statRxWhileTx (s : State) : (commitTx s).statRxWhileTx = s.statRxWhileTx := rfl
@[simp] theorem commitTx_statTx (s : State) : (commitTx s).statTx = s.statTx + 1 := rfl
@[simp] theorem commitTx_pos (s : State) : (commitTx s).pos = s.pos := rfl
@[simp] theorem commitTx_pollK (s : State) : (commitTx s).pollK = s.pollK := rfl
@[simp] theorem commitTx_retry (s : State) : (commitTx s).retry = s.retry := rfl
@[simp] theorem commitTx_hostIn (s : State) : (commitTx s).hostIn = s.hostIn := rfl
@[simp] theorem commitTx_stamp (s : State) : (commitTx s).stamp = s.stamp := rfl
@[simp] theorem commitTx_copyN (s : State) : (commitTx s).copyN = s.copyN := rfl
@[simp] theorem commitTx_copyRssi (s : State) : (commitTx s).copyRssi = s.copyRssi := rfl
@[simp] theorem commitTx_copyLqi (s : State) : (commitTx s).copyLqi = s.copyLqi := rfl
@[simp] theorem commitTx_copyIdx (s : State) : (commitTx s).copyIdx = s.copyIdx := rfl
@[simp] theorem commitTx_evtPin (s : State) : (commitTx s).evtPin = s.evtPin := rfl
@[simp] theorem commitTx_port (s : State) : (commitTx s).port = s.port := rfl
@[simp] theorem commitTx_answers (s : State) : (commitTx s).answers = s.answers := rfl
@[simp] theorem commitTx_draws (s : State) : (commitTx s).draws = s.draws := rfl
@[simp] theorem commitTx_upperPull (s : State) : (commitTx s).upperPull = s.upperPull := rfl
@[simp] theorem commitTx_sched (s : State) : (commitTx s).sched = s.sched := rfl
@[simp] theorem commitTx_hostOut (s : State) : (commitTx s).hostOut = s.hostOut := rfl
@[simp] theorem commitTx_busTrace (s : State) : (commitTx s).busTrace = s.busTrace ++ [.st s.params.strobeTx] := rfl
@[simp] theorem commitTx_events (s : State) : (commitTx s).events = s.events := rfl
@[simp] theorem commitTx_upperCopies (s : State) : (commitTx s).upperCopies = s.upperCopies := rfl
@[simp] theorem commitTx_params (s : State) : (commitTx s).params = s.params := rfl

/-! `armReceive` -/

@[simp] theorem armReceive_state (s : State) : (armReceive s).state = (if s.params.initArmsRx then RadioState.receiving.code else s.state) := rfl
@[simp] theorem armReceive_nodeAddr (s : State) : (armReceive s).nodeAddr = s.nodeAddr := rfl
@[simp] theorem armReceive_channel (s : State) : (armReceive s).channel = s.channel := rfl
@[simp] theorem armReceive_irqEn (s : State) : (armReceive s).irqEn = s.irqEn := rfl
@[simp] theorem armReceive_irqPend (s : State) : (armReceive s).irqPend = s.irqPend := rfl
@[simp] theorem armReceive_pinPrev (s : State) : (armReceive s).pinPrev = s.pinPrev := rfl
@[simp] theorem armReceive_txFault (s : State) : (armReceive s).txFault = s.txFault := rfl
@[simp] theorem armReceive_txBuf (s : State) : (armReceive s).txBuf = s.txBuf := rfl
@[simp] theorem armReceive_txLen (s : State) : (armReceive s).txLen = s.txLen := rfl
@[simp] theorem armReceive_rxBuf (s : State) : (armReceive s).rxBuf = s.rxBuf := rfl
@[simp] theorem armReceive_rxLen (s : State) : (armReceive s).rxLen = s.rxLen := rfl
@[simp] theorem armReceive_rxRssi (s : State) : (armReceive s).rxRssi = s.rxRssi := rfl
@[simp] theorem armReceive_rxLqi (s : State) : (armReceive s).rxLqi = s.rxLqi := rfl
@[simp] theorem armReceive_statRx (s : State) : (armReceive s).statRx = s.statRx := rfl
@[simp] theorem armReceive_statCrcFail (s : State) : (armReceive s).statCrcFail = s.statCrcFail := rfl
@[simp] theorem armReceive_statRxWhileTx (s : State) : (armReceive s).statRxWhileTx = s.statRxWhileTx := rfl
@[simp] theorem armReceive_statTx (s : State) : (armReceive s).statTx = s.statTx := rfl
@[simp] theorem armReceive_pos (s : State) : (armReceive s).pos = s.pos := rfl
@[simp] theorem armReceive_pollK (s : State) : (armReceive s).pollK = s.pollK := rfl
@[simp] theorem armReceive_retry (s : State) : (armReceive s).retry = s.retry := rfl
@[simp] theorem armReceive_hostIn (s : State) : (armReceive s).hostIn = s.hostIn := rfl
@[simp] theorem armReceive_stamp (s : State) : (armReceive s).stamp = s.stamp := rfl
@[simp] theorem armReceive_copyN (s : State) : (armReceive s).copyN = s.copyN := rfl
@[simp] theorem armReceive_copyRssi (s : State) : (armReceive s).copyRssi = s.copyRssi := rfl
@[simp] theorem armReceive_copyLqi (s : State) : (armReceive s).copyLqi = s.copyLqi := rfl
@[simp] theorem armReceive_copyIdx (s : State) : (armReceive s).copyIdx = s.copyIdx := rfl
@[simp] theorem armReceive_evtPin (s : State) : (armReceive s).evtPin = s.evtPin := rfl
@[simp] theorem armReceive_port (s : State) : (armReceive s).port = s.port := rfl
@[simp] theorem armReceive_answers (s : State) : (armReceive s).answers = s.answers := rfl
@[simp] theorem armReceive_draws (s : State) : (armReceive s).draws = s.draws := rfl
@[simp] theorem armReceive_upperPull (s : State) : (armReceive s).upperPull = s.upperPull := rfl
@[simp] theorem armReceive_sched (s : State) : (armReceive s).sched = s.sched := rfl
@[simp] theorem armReceive_hostOut (s : State) : (armReceive s).hostOut = s.hostOut := rfl
@[simp] theorem armReceive_busTrace (s : State) : (armReceive s).busTrace = s.busTrace ++ (if s.params.initArmsRx then [.st s.params.strobeRx] else []) := rfl
@[simp] theorem armReceive_events (s : State) : (armReceive s).events = s.events := rfl
@[simp] theorem armReceive_upperCopies (s : State) : (armReceive s).upperCopies = s.upperCopies := rfl
@[simp] theorem armReceive_params (s : State) : (armReceive s).params = s.params := rfl

/-! `copyByte` -/

@[simp] theorem copyByte_state (s : State) : (copyByte s).state = s.state := rfl
@[simp] theorem copyByte_nodeAddr (s : State) : (copyByte s).nodeAddr = s.nodeAddr := rfl
@[simp] theorem copyByte_channel (s : State) : (copyByte s).channel = s.channel := rfl
@[simp] theorem copyByte_irqEn (s : State) : (copyByte s).irqEn = s.irqEn := rfl
@[simp] theorem copyByte_irqPend (s : State) : (copyByte s).irqPend = s.irqPend := rfl
@[simp] theorem copyByte_pinPrev (s : State) : (copyByte s).pinPrev = s.pinPrev := rfl
@[simp] theorem copyByte_txFault (s : State) : (copyByte s).txFault = s.txFault := rfl
@[simp] theorem copyByte_txBuf (s : State) : (copyByte s).txBuf = s.txBuf := rfl
@[simp] theorem copyByte_txLen (s : State) : (copyByte s).txLen = s.txLen := rfl
@[simp] theorem copyByte_rxBuf (s : State) : (copyByte s).rxBuf = s.rxBuf := rfl
@[simp] theorem copyByte_rxLen (s : State) : (copyByte s).rxLen = s.rxLen := rfl
@[simp] theorem copyByte_rxRssi (s : State) : (copyByte s).rxRssi = s.rxRssi := rfl
@[simp] theorem copyByte_rxLqi (s : State) : (copyByte s).rxLqi = s.rxLqi := rfl
@[simp] theorem copyByte_statRx (s : State) : (copyByte s).statRx = s.statRx := rfl
@[simp] theorem copyByte_statCrcFail (s : State) : (copyByte s).statCrcFail = s.statCrcFail := rfl
@[simp] theorem copyByte_statRxWhileTx (s : State) : (copyByte s).statRxWhileTx = s.statRxWhileTx := rfl
@[simp] theorem copyByte_statTx (s : State) : (copyByte s).statTx = s.statTx := rfl
@[simp] theorem copyByte_pos (s : State) : (copyByte s).pos = s.pos := rfl
@[simp] theorem copyByte_pollK (s : State) : (copyByte s).pollK = s.pollK := rfl
@[simp] theorem copyByte_retry (s : State) : (copyByte s).retry = s.retry := rfl
@[simp] theorem copyByte_hostIn (s : State) : (copyByte s).hostIn = s.hostIn := rfl
@[simp] theorem copyByte_stamp (s : State) : (copyByte s).stamp = s.stamp := rfl
@[simp] theorem copyByte_copyN (s : State) : (copyByte s).copyN = s.copyN := rfl
@[simp] theorem copyByte_copyRssi (s : State) : (copyByte s).copyRssi = s.copyRssi := rfl
@[simp] theorem copyByte_copyLqi (s : State) : (copyByte s).copyLqi = s.copyLqi := rfl
@[simp] theorem copyByte_copyIdx (s : State) : (copyByte s).copyIdx = s.copyIdx + 1 := rfl
@[simp] theorem copyByte_evtPin (s : State) : (copyByte s).evtPin = s.evtPin := rfl
@[simp] theorem copyByte_port (s : State) : (copyByte s).port = s.port := rfl
@[simp] theorem copyByte_answers (s : State) : (copyByte s).answers = s.answers := rfl
@[simp] theorem copyByte_draws (s : State) : (copyByte s).draws = s.draws := rfl
@[simp] theorem copyByte_upperPull (s : State) : (copyByte s).upperPull = s.upperPull := rfl
@[simp] theorem copyByte_sched (s : State) : (copyByte s).sched = s.sched := rfl
@[simp] theorem copyByte_hostOut (s : State) : (copyByte s).hostOut = s.hostOut.write s.copyIdx (s.rxBuf.read s.copyIdx) := rfl
@[simp] theorem copyByte_busTrace (s : State) : (copyByte s).busTrace = s.busTrace := rfl
@[simp] theorem copyByte_events (s : State) : (copyByte s).events = s.events := rfl
@[simp] theorem copyByte_upperCopies (s : State) : (copyByte s).upperCopies = s.upperCopies := rfl
@[simp] theorem copyByte_params (s : State) : (copyByte s).params = s.params := rfl

/-! `latchFrame` -/

@[simp] theorem latchFrame_state (s : State) : (latchFrame s).state = s.state := rfl
@[simp] theorem latchFrame_nodeAddr (s : State) : (latchFrame s).nodeAddr = s.nodeAddr := rfl
@[simp] theorem latchFrame_channel (s : State) : (latchFrame s).channel = s.channel := rfl
@[simp] theorem latchFrame_irqEn (s : State) : (latchFrame s).irqEn = s.irqEn := rfl
@[simp] theorem latchFrame_irqPend (s : State) : (latchFrame s).irqPend = s.irqPend := rfl
@[simp] theorem latchFrame_pinPrev (s : State) : (latchFrame s).pinPrev = s.pinPrev := rfl
@[simp] theorem latchFrame_txFault (s : State) : (latchFrame s).txFault = s.txFault := rfl
@[simp] theorem latchFrame_txBuf (s : State) : (latchFrame s).txBuf = s.txBuf := rfl
@[simp] theorem latchFrame_txLen (s : State) : (latchFrame s).txLen = s.txLen := rfl
@[simp] theorem latchFrame_rxBuf (s : State) : (latchFrame s).rxBuf = s.rxBuf := rfl
@[simp] theorem latchFrame_rxLen (s : State) : (latchFrame s).rxLen = s.rxLen := rfl
@[simp] theorem latchFrame_rxRssi (s : State) : (latchFrame s).rxRssi = s.rxRssi := rfl
@[simp] theorem latchFrame_rxLqi (s : State) : (latchFrame s).rxLqi = s.rxLqi := rfl
@[simp] theorem latchFrame_statRx (s : State) : (latchFrame s).statRx = s.statRx := rfl
@[simp] theorem latchFrame_statCrcFail (s : State) : (latchFrame s).statCrcFail = s.statCrcFail := rfl
@[simp] theorem latchFrame_statRxWhileTx (s : State) : (latchFrame s).statRxWhileTx = s.statRxWhileTx := rfl
@[simp] theorem latchFrame_statTx (s : State) : (latchFrame s).statTx = s.statTx := rfl
@[simp] theorem latchFrame_pos (s : State) : (latchFrame s).pos = s.pos := rfl
@[simp] theorem latchFrame_pollK (s : State) : (latchFrame s).pollK = s.pollK := rfl
@[simp] theorem latchFrame_retry (s : State) : (latchFrame s).retry = s.retry := rfl
@[simp] theorem latchFrame_hostIn (s : State) : (latchFrame s).hostIn = s.hostIn := rfl
@[simp] theorem latchFrame_stamp (s : State) : (latchFrame s).stamp = s.stamp := rfl
@[simp] theorem latchFrame_copyN (s : State) : (latchFrame s).copyN = s.rxLen := rfl
@[simp] theorem latchFrame_copyRssi (s : State) : (latchFrame s).copyRssi = s.rxRssi := rfl
@[simp] theorem latchFrame_copyLqi (s : State) : (latchFrame s).copyLqi = s.rxLqi := rfl
@[simp] theorem latchFrame_copyIdx (s : State) : (latchFrame s).copyIdx = 0 := rfl
@[simp] theorem latchFrame_evtPin (s : State) : (latchFrame s).evtPin = s.evtPin := rfl
@[simp] theorem latchFrame_port (s : State) : (latchFrame s).port = s.port := rfl
@[simp] theorem latchFrame_answers (s : State) : (latchFrame s).answers = s.answers := rfl
@[simp] theorem latchFrame_draws (s : State) : (latchFrame s).draws = s.draws := rfl
@[simp] theorem latchFrame_upperPull (s : State) : (latchFrame s).upperPull = s.upperPull := rfl
@[simp] theorem latchFrame_sched (s : State) : (latchFrame s).sched = s.sched := rfl
@[simp] theorem latchFrame_hostOut (s : State) : (latchFrame s).hostOut = s.hostOut := rfl
@[simp] theorem latchFrame_busTrace (s : State) : (latchFrame s).busTrace = s.busTrace := rfl
@[simp] theorem latchFrame_events (s : State) : (latchFrame s).events = s.events := rfl
@[simp] theorem latchFrame_upperCopies (s : State) : (latchFrame s).upperCopies = s.upperCopies := rfl
@[simp] theorem latchFrame_params (s : State) : (latchFrame s).params = s.params := rfl

/-! `storeFrame` -/

@[simp] theorem storeFrame_state (b : List Byte) (n rssi : Byte) (q : BitVec 7) (s : State) : (storeFrame b n rssi q s).state = s.state := rfl
@[simp] theorem storeFrame_nodeAddr (b : List Byte) (n rssi : Byte) (q : BitVec 7) (s : State) : (storeFrame b n rssi q s).nodeAddr = s.nodeAddr := rfl
@[simp] theorem storeFrame_channel (b : List Byte) (n rssi : Byte) (q : BitVec 7) (s : State) : (storeFrame b n rssi q s).channel = s.channel := rfl
@[simp] theorem storeFrame_irqEn (b : List Byte) (n rssi : Byte) (q : BitVec 7) (s : State) : (storeFrame b n rssi q s).irqEn = s.irqEn := rfl
@[simp] theorem storeFrame_irqPend (b : List Byte) (n rssi : Byte) (q : BitVec 7) (s : State) : (storeFrame b n rssi q s).irqPend = s.irqPend := rfl
@[simp] theorem storeFrame_pinPrev (b : List Byte) (n rssi : Byte) (q : BitVec 7) (s : State) : (storeFrame b n rssi q s).pinPrev = s.pinPrev := rfl
@[simp] theorem storeFrame_txFault (b : List Byte) (n rssi : Byte) (q : BitVec 7) (s : State) : (storeFrame b n rssi q s).txFault = s.txFault := rfl
@[simp] theorem storeFrame_txBuf (b : List Byte) (n rssi : Byte) (q : BitVec 7) (s : State) : (storeFrame b n rssi q s).txBuf = s.txBuf := rfl
@[simp] theorem storeFrame_txLen (b : List Byte) (n rssi : Byte) (q : BitVec 7) (s : State) : (storeFrame b n rssi q s).txLen = s.txLen := rfl
@[simp] theorem storeFrame_rxBuf (b : List Byte) (n rssi : Byte) (q : BitVec 7) (s : State) : (storeFrame b n rssi q s).rxBuf = s.rxBuf.writeBytes 0 b := rfl
@[simp] theorem storeFrame_rxLen (b : List Byte) (n rssi : Byte) (q : BitVec 7) (s : State) : (storeFrame b n rssi q s).rxLen = n := rfl
@[simp] theorem storeFrame_rxRssi (b : List Byte) (n rssi : Byte) (q : BitVec 7) (s : State) : (storeFrame b n rssi q s).rxRssi = rssi := rfl
@[simp] theorem storeFrame_rxLqi (b : List Byte) (n rssi : Byte) (q : BitVec 7) (s : State) : (storeFrame b n rssi q s).rxLqi = q := rfl
@[simp] theorem storeFrame_statRx (b : List Byte) (n rssi : Byte) (q : BitVec 7) (s : State) : (storeFrame b n rssi q s).statRx = s.statRx := rfl
@[simp] theorem storeFrame_statCrcFail (b : List Byte) (n rssi : Byte) (q : BitVec 7) (s : State) : (storeFrame b n rssi q s).statCrcFail = s.statCrcFail := rfl
@[simp] theorem storeFrame_statRxWhileTx (b : List Byte) (n rssi : Byte) (q : BitVec 7) (s : State) : (storeFrame b n rssi q s).statRxWhileTx = s.statRxWhileTx := rfl
@[simp] theorem storeFrame_statTx (b : List Byte) (n rssi : Byte) (q : BitVec 7) (s : State) : (storeFrame b n rssi q s).statTx = s.statTx := rfl
@[simp] theorem storeFrame_pos (b : List Byte) (n rssi : Byte) (q : BitVec 7) (s : State) : (storeFrame b n rssi q s).pos = s.pos := rfl
@[simp] theorem storeFrame_pollK (b : List Byte) (n rssi : Byte) (q : BitVec 7) (s : State) : (storeFrame b n rssi q s).pollK = s.pollK := rfl
@[simp] theorem storeFrame_retry (b : List Byte) (n rssi : Byte) (q : BitVec 7) (s : State) : (storeFrame b n rssi q s).retry = s.retry := rfl
@[simp] theorem storeFrame_hostIn (b : List Byte) (n rssi : Byte) (q : BitVec 7) (s : State) : (storeFrame b n rssi q s).hostIn = s.hostIn := rfl
@[simp] theorem storeFrame_stamp (b : List Byte) (n rssi : Byte) (q : BitVec 7) (s : State) : (storeFrame b n rssi q s).stamp = s.stamp := rfl
@[simp] theorem storeFrame_copyN (b : List Byte) (n rssi : Byte) (q : BitVec 7) (s : State) : (storeFrame b n rssi q s).copyN = s.copyN := rfl
@[simp] theorem storeFrame_copyRssi (b : List Byte) (n rssi : Byte) (q : BitVec 7) (s : State) : (storeFrame b n rssi q s).copyRssi = s.copyRssi := rfl
@[simp] theorem storeFrame_copyLqi (b : List Byte) (n rssi : Byte) (q : BitVec 7) (s : State) : (storeFrame b n rssi q s).copyLqi = s.copyLqi := rfl
@[simp] theorem storeFrame_copyIdx (b : List Byte) (n rssi : Byte) (q : BitVec 7) (s : State) : (storeFrame b n rssi q s).copyIdx = s.copyIdx := rfl
@[simp] theorem storeFrame_evtPin (b : List Byte) (n rssi : Byte) (q : BitVec 7) (s : State) : (storeFrame b n rssi q s).evtPin = s.evtPin := rfl
@[simp] theorem storeFrame_port (b : List Byte) (n rssi : Byte) (q : BitVec 7) (s : State) : (storeFrame b n rssi q s).port = s.port := rfl
@[simp] theorem storeFrame_answers (b : List Byte) (n rssi : Byte) (q : BitVec 7) (s : State) : (storeFrame b n rssi q s).answers = s.answers := rfl
@[simp] theorem storeFrame_draws (b : List Byte) (n rssi : Byte) (q : BitVec 7) (s : State) : (storeFrame b n rssi q s).draws = s.draws := rfl
@[simp] theorem storeFrame_upperPull (b : List Byte) (n rssi : Byte) (q : BitVec 7) (s : State) : (storeFrame b n rssi q s).upperPull = s.upperPull := rfl
@[simp] theorem storeFrame_sched (b : List Byte) (n rssi : Byte) (q : BitVec 7) (s : State) : (storeFrame b n rssi q s).sched = s.sched := rfl
@[simp] theorem storeFrame_hostOut (b : List Byte) (n rssi : Byte) (q : BitVec 7) (s : State) : (storeFrame b n rssi q s).hostOut = s.hostOut := rfl
@[simp] theorem storeFrame_busTrace (b : List Byte) (n rssi : Byte) (q : BitVec 7) (s : State) : (storeFrame b n rssi q s).busTrace = s.busTrace := rfl
@[simp] theorem storeFrame_events (b : List Byte) (n rssi : Byte) (q : BitVec 7) (s : State) : (storeFrame b n rssi q s).events = s.events := rfl
@[simp] theorem storeFrame_upperCopies (b : List Byte) (n rssi : Byte) (q : BitVec 7) (s : State) : (storeFrame b n rssi q s).upperCopies = s.upperCopies := rfl
@[simp] theorem storeFrame_params (b : List Byte) (n rssi : Byte) (q : BitVec 7) (s : State) : (storeFrame b n rssi q s).params = s.params := rfl

/-! `upperPullStep` -/

@[simp] theorem upperPullStep_state (s : State) : (upperPullStep s).state = s.state := rfl
@[simp] theorem upperPullStep_nodeAddr (s : State) : (upperPullStep s).nodeAddr = s.nodeAddr := rfl
@[simp] theorem upperPullStep_channel (s : State) : (upperPullStep s).channel = s.channel := rfl
@[simp] theorem upperPullStep_irqEn (s : State) : (upperPullStep s).irqEn = s.irqEn := rfl
@[simp] theorem upperPullStep_irqPend (s : State) : (upperPullStep s).irqPend = s.irqPend := rfl
@[simp] theorem upperPullStep_pinPrev (s : State) : (upperPullStep s).pinPrev = s.pinPrev := rfl
@[simp] theorem upperPullStep_txFault (s : State) : (upperPullStep s).txFault = s.txFault := rfl
@[simp] theorem upperPullStep_txBuf (s : State) : (upperPullStep s).txBuf = s.txBuf := rfl
@[simp] theorem upperPullStep_txLen (s : State) : (upperPullStep s).txLen = s.txLen := rfl
@[simp] theorem upperPullStep_rxBuf (s : State) : (upperPullStep s).rxBuf = s.rxBuf := rfl
@[simp] theorem upperPullStep_rxLen (s : State) : (upperPullStep s).rxLen = s.rxLen := rfl
@[simp] theorem upperPullStep_rxRssi (s : State) : (upperPullStep s).rxRssi = s.rxRssi := rfl
@[simp] theorem upperPullStep_rxLqi (s : State) : (upperPullStep s).rxLqi = s.rxLqi := rfl
@[simp] theorem upperPullStep_statRx (s : State) : (upperPullStep s).statRx = s.statRx := rfl
@[simp] theorem upperPullStep_statCrcFail (s : State) : (upperPullStep s).statCrcFail = s.statCrcFail := rfl
@[simp] theorem upperPullStep_statRxWhileTx (s : State) : (upperPullStep s).statRxWhileTx = s.statRxWhileTx := rfl
@[simp] theorem upperPullStep_statTx (s : State) : (upperPullStep s).statTx = s.statTx := rfl
@[simp] theorem upperPullStep_pos (s : State) : (upperPullStep s).pos = s.pos := rfl
@[simp] theorem upperPullStep_pollK (s : State) : (upperPullStep s).pollK = s.pollK := rfl
@[simp] theorem upperPullStep_retry (s : State) : (upperPullStep s).retry = s.retry := rfl
@[simp] theorem upperPullStep_hostIn (s : State) : (upperPullStep s).hostIn = s.hostIn := rfl
@[simp] theorem upperPullStep_stamp (s : State) : (upperPullStep s).stamp = s.stamp := rfl
@[simp] theorem upperPullStep_copyN (s : State) : (upperPullStep s).copyN = s.copyN := rfl
@[simp] theorem upperPullStep_copyRssi (s : State) : (upperPullStep s).copyRssi = s.copyRssi := rfl
@[simp] theorem upperPullStep_copyLqi (s : State) : (upperPullStep s).copyLqi = s.copyLqi := rfl
@[simp] theorem upperPullStep_copyIdx (s : State) : (upperPullStep s).copyIdx = s.copyIdx := rfl
@[simp] theorem upperPullStep_evtPin (s : State) : (upperPullStep s).evtPin = s.evtPin := rfl
@[simp] theorem upperPullStep_port (s : State) : (upperPullStep s).port = s.port := rfl
@[simp] theorem upperPullStep_answers (s : State) : (upperPullStep s).answers = s.answers := rfl
@[simp] theorem upperPullStep_draws (s : State) : (upperPullStep s).draws = s.draws := rfl
@[simp] theorem upperPullStep_upperPull (s : State) : (upperPullStep s).upperPull = s.upperPull := rfl
@[simp] theorem upperPullStep_sched (s : State) : (upperPullStep s).sched = s.sched := rfl
@[simp] theorem upperPullStep_hostOut (s : State) : (upperPullStep s).hostOut = s.hostOut := rfl
@[simp] theorem upperPullStep_busTrace (s : State) : (upperPullStep s).busTrace = s.busTrace := rfl
@[simp] theorem upperPullStep_events (s : State) : (upperPullStep s).events = s.events := rfl
@[simp] theorem upperPullStep_upperCopies (s : State) : (upperPullStep s).upperCopies = s.upperCopies ++ (if s.upperPull then [upperCopyOf s] else []) := rfl
@[simp] theorem upperPullStep_params (s : State) : (upperPullStep s).params = s.params := rfl

/-! `nextAnswer` -/

@[simp] theorem nextAnswer_state (r : Byte) (s : State) : ((nextAnswer r s).2).state = s.state := by unfold nextAnswer; split <;> rfl
@[simp] theorem nextAnswer_nodeAddr (r : Byte) (s : State) : ((nextAnswer r s).2).nodeAddr = s.nodeAddr := by unfold nextAnswer; split <;> rfl
@[simp] theorem nextAnswer_channel (r : Byte) (s : State) : ((nextAnswer r s).2).channel = s.channel := by unfold nextAnswer; split <;> rfl
@[simp] theorem nextAnswer_irqEn (r : Byte) (s : State) : ((nextAnswer r s).2).irqEn = s.irqEn := by unfold nextAnswer; split <;> rfl
@[simp] theorem nextAnswer_irqPend (r : Byte) (s : State) : ((nextAnswer r s).2).irqPend = s.irqPend := by unfold nextAnswer; split <;> rfl
@[simp] theorem nextAnswer_pinPrev (r : Byte) (s : State) : ((nextAnswer r s).2).pinPrev = s.pinPrev := by unfold nextAnswer; split <;> rfl
@[simp] theorem nextAnswer_txFault (r : Byte) (s : State) : ((nextAnswer r s).2).txFault = s.txFault := by unfold nextAnswer; split <;> rfl
@[simp] theorem nextAnswer_txBuf (r : Byte) (s : State) : ((nextAnswer r s).2).txBuf = s.txBuf := by unfold nextAnswer; split <;> rfl
@[simp] theorem nextAnswer_txLen (r : Byte) (s : State) : ((nextAnswer r s).2).txLen = s.txLen := by unfold nextAnswer; split <;> rfl
@[simp] theorem nextAnswer_rxBuf (r : Byte) (s : State) : ((nextAnswer r s).2).rxBuf = s.rxBuf := by unfold nextAnswer; split <;> rfl
@[simp] theorem nextAnswer_rxLen (r : Byte) (s : State) : ((nextAnswer r s).2).rxLen = s.rxLen := by unfold nextAnswer; split <;> rfl
@[simp] theorem nextAnswer_rxRssi (r : Byte) (s : State) : ((nextAnswer r s).2).rxRssi = s.rxRssi := by unfold nextAnswer; split <;> rfl
@[simp] theorem nextAnswer_rxLqi (r : Byte) (s : State) : ((nextAnswer r s).2).rxLqi = s.rxLqi := by unfold nextAnswer; split <;> rfl
@[simp] theorem nextAnswer_statRx (r : Byte) (s : State) : ((nextAnswer r s).2).statRx = s.statRx := by unfold nextAnswer; split <;> rfl
@[simp] theorem nextAnswer_statCrcFail (r : Byte) (s : State) : ((nextAnswer r s).2).statCrcFail = s.statCrcFail := by unfold nextAnswer; split <;> rfl
@[simp] theorem nextAnswer_statRxWhileTx (r : Byte) (s : State) : ((nextAnswer r s).2).statRxWhileTx = s.statRxWhileTx := by unfold nextAnswer; split <;> rfl
@[simp] theorem nextAnswer_statTx (r : Byte) (s : State) : ((nextAnswer r s).2).statTx = s.statTx := by unfold nextAnswer; split <;> rfl
@[simp] theorem nextAnswer_pos (r : Byte) (s : State) : ((nextAnswer r s).2).pos = s.pos := by unfold nextAnswer; split <;> rfl
@[simp] theorem nextAnswer_pollK (r : Byte) (s : State) : ((nextAnswer r s).2).pollK = s.pollK := by unfold nextAnswer; split <;> rfl
@[simp] theorem nextAnswer_retry (r : Byte) (s : State) : ((nextAnswer r s).2).retry = s.retry := by unfold nextAnswer; split <;> rfl
@[simp] theorem nextAnswer_hostIn (r : Byte) (s : State) : ((nextAnswer r s).2).hostIn = s.hostIn := by unfold nextAnswer; split <;> rfl
@[simp] theorem nextAnswer_stamp (r : Byte) (s : State) : ((nextAnswer r s).2).stamp = s.stamp := by unfold nextAnswer; split <;> rfl
@[simp] theorem nextAnswer_copyN (r : Byte) (s : State) : ((nextAnswer r s).2).copyN = s.copyN := by unfold nextAnswer; split <;> rfl
@[simp] theorem nextAnswer_copyRssi (r : Byte) (s : State) : ((nextAnswer r s).2).copyRssi = s.copyRssi := by unfold nextAnswer; split <;> rfl
@[simp] theorem nextAnswer_copyLqi (r : Byte) (s : State) : ((nextAnswer r s).2).copyLqi = s.copyLqi := by unfold nextAnswer; split <;> rfl
@[simp] theorem nextAnswer_copyIdx (r : Byte) (s : State) : ((nextAnswer r s).2).copyIdx = s.copyIdx := by unfold nextAnswer; split <;> rfl
@[simp] theorem nextAnswer_evtPin (r : Byte) (s : State) : ((nextAnswer r s).2).evtPin = s.evtPin := by unfold nextAnswer; split <;> rfl
@[simp] theorem nextAnswer_port (r : Byte) (s : State) : ((nextAnswer r s).2).port = s.port := by unfold nextAnswer; split <;> rfl
@[simp] theorem nextAnswer_upperPull (r : Byte) (s : State) : ((nextAnswer r s).2).upperPull = s.upperPull := by unfold nextAnswer; split <;> rfl
@[simp] theorem nextAnswer_sched (r : Byte) (s : State) : ((nextAnswer r s).2).sched = s.sched := by unfold nextAnswer; split <;> rfl
@[simp] theorem nextAnswer_hostOut (r : Byte) (s : State) : ((nextAnswer r s).2).hostOut = s.hostOut := by unfold nextAnswer; split <;> rfl
@[simp] theorem nextAnswer_busTrace (r : Byte) (s : State) : ((nextAnswer r s).2).busTrace = s.busTrace := by unfold nextAnswer; split <;> rfl
@[simp] theorem nextAnswer_events (r : Byte) (s : State) : ((nextAnswer r s).2).events = s.events := by unfold nextAnswer; split <;> rfl
@[simp] theorem nextAnswer_upperCopies (r : Byte) (s : State) : ((nextAnswer r s).2).upperCopies = s.upperCopies := by unfold nextAnswer; split <;> rfl
@[simp] theorem nextAnswer_params (r : Byte) (s : State) : ((nextAnswer r s).2).params = s.params := by unfold nextAnswer; split <;> rfl

/-! `nextAnswers` -/

@[simp] theorem nextAnswers_state (r : Byte) (n : Nat) (s : State) : ((nextAnswers r n s).2).state = s.state := by
  induction n generalizing s with
  | zero => rfl
  | succ n ih => simp [nextAnswers, ih]
@[simp] theorem nextAnswers_nodeAddr (r : Byte) (n : Nat) (s : State) : ((nextAnswers r n s).2).nodeAddr = s.nodeAddr := by
  induction n generalizing s with
  | zero => rfl
  | succ n ih => simp [nextAnswers, ih]
@[simp] theorem nextAnswers_channel (r : Byte) (n : Nat) (s : State) : ((nextAnswers r n s).2).channel = s.channel := by
  induction n generalizing s with
  | zero => rfl
  | succ n ih => simp [nextAnswers, ih]
@[simp] theorem nextAnswers_irqEn (r : Byte) (n : Nat) (s : State) : ((nextAnswers r n s).2).irqEn = s.irqEn := by
  induction n generalizing s with
  | zero => rfl
  | succ n ih => simp [nextAnswers, ih]
@[simp] theorem nextAnswers_irqPend (r : Byte) (n : Nat) (s : State) : ((nextAnswers r n s).2).irqPend = s.irqPend := by
  induction n generalizing s with
  | zero => rfl
  | succ n ih => simp [nextAnswers, ih]
@[simp] theorem nextAnswers_pinPrev (r : Byte) (n : Nat) (s : State) : ((nextAnswers r n s).2).pinPrev = s.pinPrev := by
  induction n generalizing s with
  | zero => rfl
  | succ n ih => simp [nextAnswers, ih]
@[simp] theorem nextAnswers_txFault (r : Byte) (n : Nat) (s : State) : ((nextAnswers r n s).2).txFault = s.txFault := by
  induction n generalizing s with
  | zero => rfl
  | succ n ih => simp [nextAnswers, ih]
@[simp] theorem nextAnswers_txBuf (r : Byte) (n : Nat) (s : State) : ((nextAnswers r n s).2).txBuf = s.txBuf := by
  induction n generalizing s with
  | zero => rfl
  | succ n ih => simp [nextAnswers, ih]
@[simp] theorem nextAnswers_txLen (r : Byte) (n : Nat) (s : State) : ((nextAnswers r n s).2).txLen = s.txLen := by
  induction n generalizing s with
  | zero => rfl
  | succ n ih => simp [nextAnswers, ih]
@[simp] theorem nextAnswers_rxBuf (r : Byte) (n : Nat) (s : State) : ((nextAnswers r n s).2).rxBuf = s.rxBuf := by
  induction n generalizing s with
  | zero => rfl
  | succ n ih => simp [nextAnswers, ih]
@[simp] theorem nextAnswers_rxLen (r : Byte) (n : Nat) (s : State) : ((nextAnswers r n s).2).rxLen = s.rxLen := by
  induction n generalizing s with
  | zero => rfl
  | succ n ih => simp [nextAnswers, ih]
@[simp] theorem nextAnswers_rxRssi (r : Byte) (n : Nat) (s : State) : ((nextAnswers r n s).2).rxRssi = s.rxRssi := by
  induction n generalizing s with
  | zero => rfl
  | succ n ih => simp [nextAnswers, ih]
@[simp] theorem nextAnswers_rxLqi (r : Byte) (n : Nat) (s : State) : ((nextAnswers r n s).2).rxLqi = s.rxLqi := by
  induction n generalizing s with
  | zero => rfl
  | succ n ih => simp [nextAnswers, ih]
@[simp] theorem nextAnswers_statRx (r : Byte) (n : Nat) (s : State) : ((nextAnswers r n s).2).statRx = s.statRx := by
  induction n generalizing s with
  | zero => rfl
  | succ n ih => simp [nextAnswers, ih]
@[simp] theorem nextAnswers_statCrcFail (r : Byte) (n : Nat) (s : State) : ((nextAnswers r n s).2).statCrcFail = s.statCrcFail := by
  induction n generalizing s with
  | zero => rfl
  | succ n ih => simp [nextAnswers, ih]
@[simp] theorem nextAnswers_statRxWhileTx (r : Byte) (n : Nat) (s : State) : ((nextAnswers r n s).2).statRxWhileTx = s.statRxWhileTx := by
  induction n generalizing s with
  | zero => rfl
  | succ n ih => simp [nextAnswers, ih]
@[simp] theorem nextAnswers_statTx (r : Byte) (n : Nat) (s : State) : ((nextAnswers r n s).2).statTx = s.statTx := by
  induction n generalizing s with
  | zero => rfl
  | succ n ih => simp [nextAnswers, ih]
@[simp] theorem nextAnswers_pos (r : Byte) (n : Nat) (s : State) : ((nextAnswers r n s).2).pos = s.pos := by
  induction n generalizing s with
  | zero => rfl
  | succ n ih => simp [nextAnswers, ih]
@[simp] theorem nextAnswers_pollK (r : Byte) (n : Nat) (s : State) : ((nextAnswers r n s).2).pollK = s.pollK := by
  induction n generalizing s with
  | zero => rfl
  | succ n ih => simp [nextAnswers, ih]
@[simp] theorem nextAnswers_retry (r : Byte) (n : Nat) (s : State) : ((nextAnswers r n s).2).retry = s.retry := by
  induction n generalizing s with
  | zero => rfl
  | succ n ih => simp [nextAnswers, ih]
@[simp] theorem nextAnswers_hostIn (r : Byte) (n : Nat) (s : State) : ((nextAnswers r n s).2).hostIn = s.hostIn := by
  induction n generalizing s with
  | zero => rfl
  | succ n ih => simp [nextAnswers, ih]
@[simp] theorem nextAnswers_stamp (r : Byte) (n : Nat) (s : State) : ((nextAnswers r n s).2).stamp = s.stamp := by
  induction n generalizing s with
  | zero => rfl
  | succ n ih => simp [nextAnswers, ih]
@[simp] theorem nextAnswers_copyN (r : Byte) (n : Nat) (s : State) : ((nextAnswers r n s).2).copyN = s.copyN := by
  induction n generalizing s with
  | zero => rfl
  | succ n ih => simp [nextAnswers, ih]
@[simp] theorem nextAnswers_copyRssi (r : Byte) (n : Nat) (s : State) : ((nextAnswers r n s).2).copyRssi = s.copyRssi := by
  induction n generalizing s with
  | zero => rfl
  | succ n ih => simp [nextAnswers, ih]
@[simp] theorem nextAnswers_copyLqi (r : Byte) (n : Nat) (s : State) : ((nextAnswers r n s).2).copyLqi = s.copyLqi := by
  induction n generalizing s with
  | zero => rfl
  | succ n ih => simp [nextAnswers, ih]
@[simp] theorem nextAnswers_copyIdx (r : Byte) (n : Nat) (s : State) : ((nextAnswers r n s).2).copyIdx = s.copyIdx := by
  induction n generalizing s with
  | zero => rfl
  | succ n ih => simp [nextAnswers, ih]
@[simp] theorem nextAnswers_evtPin (r : Byte) (n : Nat) (s : State) : ((nextAnswers r n s).2).evtPin = s.evtPin := by
  induction n generalizing s with
  | zero => rfl
  | succ n ih => simp [nextAnswers, ih]
@[simp] theorem nextAnswers_port (r : Byte) (n : Nat) (s : State) : ((nextAnswers r n s).2).port = s.port := by
  induction n generalizing s with
  | zero => rfl
  | succ n ih => simp [nextAnswers, ih]
@[simp] theorem nextAnswers_upperPull (r : Byte) (n : Nat) (s : State) : ((nextAnswers r n s).2).upperPull = s.upperPull := by
  induction n generalizing s with
  | zero => rfl
  | succ n ih => simp [nextAnswers, ih]
@[simp] theorem nextAnswers_sched (r : Byte) (n : Nat) (s : State) : ((nextAnswers r n s).2).sched = s.sched := by
  induction n generalizing s with
  | zero => rfl
  | succ n ih => simp [nextAnswers, ih]
@[simp] theorem nextAnswers_hostOut (r : Byte) (n : Nat) (s : State) : ((nextAnswers r n s).2).hostOut = s.hostOut := by
  induction n generalizing s with
  | zero => rfl
  | succ n ih => simp [nextAnswers, ih]
@[simp] theorem nextAnswers_busTrace (r : Byte) (n : Nat) (s : State) : ((nextAnswers r n s).2).busTrace = s.busTrace := by
  induction n generalizing s with
  | zero => rfl
  | succ n ih => simp [nextAnswers, ih]
@[simp] theorem nextAnswers_events (r : Byte) (n : Nat) (s : State) : ((nextAnswers r n s).2).events = s.events := by
  induction n generalizing s with
  | zero => rfl
  | succ n ih => simp [nextAnswers, ih]
@[simp] theorem nextAnswers_upperCopies (r : Byte) (n : Nat) (s : State) : ((nextAnswers r n s).2).upperCopies = s.upperCopies := by
  induction n generalizing s with
  | zero => rfl
  | succ n ih => simp [nextAnswers, ih]
@[simp] theorem nextAnswers_params (r : Byte) (n : Nat) (s : State) : ((nextAnswers r n s).2).params = s.params := by
  induction n generalizing s with
  | zero => rfl
  | succ n ih => simp [nextAnswers, ih]

/-! `busRead` -/

@[simp] theorem busRead_state (r : Byte) (s : State) : ((busRead r s).2).state = s.state := by simp [busRead]
@[simp] theorem busRead_nodeAddr (r : Byte) (s : State) : ((busRead r s).2).nodeAddr = s.nodeAddr := by simp [busRead]
@[simp] theorem busRead_channel (r : Byte) (s : State) : ((busRead r s).2).channel = s.channel := by simp [busRead]
@[simp] theorem busRead_irqEn (r : Byte) (s : State) : ((busRead r s).2).irqEn = s.irqEn := by simp [busRead]
@[simp] theorem busRead_irqPend (r : Byte) (s : State) : ((busRead r s).2).irqPend = s.irqPend := by simp [busRead]
@[simp] theorem busRead_pinPrev (r : Byte) (s : State) : ((busRead r s).2).pinPrev = s.pinPrev := by simp [busRead]
@[simp] theorem busRead_txFault (r : Byte) (s : State) : ((busRead r s).2).txFault = s.txFault := by simp [busRead]
@[simp] theorem busRead_txBuf (r : Byte) (s : State) : ((busRead r s).2).txBuf = s.txBuf := by simp [busRead]
@[simp] theorem busRead_txLen (r : Byte) (s : State) : ((busRead r s).2).txLen = s.txLen := by simp [busRead]
@[simp] theorem busRead_rxBuf (r : Byte) (s : State) : ((busRead r s).2).rxBuf = s.rxBuf := by simp [busRead]
@[simp] theorem busRead_rxLen (r : Byte) (s : State) : ((busRead r s).2).rxLen = s.rxLen := by simp [busRead]
@[simp] theorem busRead_rxRssi (r : Byte) (s : State) : ((busRead r s).2).rxRssi = s.rxRssi := by simp [busRead]
@[simp] theorem busRead_rxLqi (r : Byte) (s : State) : ((busRead r s).2).rxLqi = s.rxLqi := by simp [busRead]
@[simp] theorem busRead_statRx (r : Byte) (s : State) : ((busRead r s).2).statRx = s.statRx := by simp [busRead]
@[simp] theorem busRead_statCrcFail (r : Byte) (s : State) : ((busRead r s).2).statCrcFail = s.statCrcFail := by simp [busRead]
@[simp] theorem busRead_statRxWhileTx (r : Byte) (s : State) : ((busRead r s).2).statRxWhileTx = s.statRxWhileTx := by simp [busRead]
@[simp] theorem busRead_statTx (r : Byte) (s : State) : ((busRead r s).2).statTx = s.statTx := by simp [busRead]
@[simp] theorem busRead_pos (r : Byte) (s : State) : ((busRead r s).2).pos = s.pos := by simp [busRead]
@[simp] theorem busRead_pollK (r : Byte) (s : State) : ((busRead r s).2).pollK = s.pollK := by simp [busRead]
@[simp] theorem busRead_retry (r : Byte) (s : State) : ((busRead r s).2).retry = s.retry := by simp [busRead]
@[simp] theorem busRead_hostIn (r : Byte) (s : State) : ((busRead r s).2).hostIn = s.hostIn := by simp [busRead]
@[simp] theorem busRead_stamp (r : Byte) (s : State) : ((busRead r s).2).stamp = s.stamp := by simp [busRead]
@[simp] theorem busRead_copyN (r : Byte) (s : State) : ((busRead r s).2).copyN = s.copyN := by simp [busRead]
@[simp] theorem busRead_copyRssi (r : Byte) (s : State) : ((busRead r s).2).copyRssi = s.copyRssi := by simp [busRead]
@[simp] theorem busRead_copyLqi (r : Byte) (s : State) : ((busRead r s).2).copyLqi = s.copyLqi := by simp [busRead]
@[simp] theorem busRead_copyIdx (r : Byte) (s : State) : ((busRead r s).2).copyIdx = s.copyIdx := by simp [busRead]
@[simp] theorem busRead_evtPin (r : Byte) (s : State) : ((busRead r s).2).evtPin = s.evtPin := by simp [busRead]
@[simp] theorem busRead_port (r : Byte) (s : State) : ((busRead r s).2).port = s.port := by simp [busRead]
@[simp] theorem busRead_upperPull (r : Byte) (s : State) : ((busRead r s).2).upperPull = s.upperPull := by simp [busRead]
@[simp] theorem busRead_sched (r : Byte) (s : State) : ((busRead r s).2).sched = s.sched := by simp [busRead]
@[simp] theorem busRead_hostOut (r : Byte) (s : State) : ((busRead r s).2).hostOut = s.hostOut := by simp [busRead]
@[simp] theorem busRead_busTrace (r : Byte) (s : State) : ((busRead r s).2).busTrace = s.busTrace ++ [.rd r (busRead r s).1] := by simp [busRead]
@[simp] theorem busRead_events (r : Byte) (s : State) : ((busRead r s).2).events = s.events := by simp [busRead]
@[simp] theorem busRead_upperCopies (r : Byte) (s : State) : ((busRead r s).2).upperCopies = s.upperCopies := by simp [busRead]
@[simp] theorem busRead_params (r : Byte) (s : State) : ((busRead r s).2).params = s.params := by simp [busRead]

/-! `burstRead` -/

@[simp] theorem burstRead_state (r : Byte) (n : Nat) (s : State) : ((burstRead r n s).2).state = s.state := by simp [burstRead]
@[simp] theorem burstRead_nodeAddr (r : Byte) (n : Nat) (s : State) : ((burstRead r n s).2).nodeAddr = s.nodeAddr := by simp [burstRead]
@[simp] theorem burstRead_channel (r : Byte) (n : Nat) (s : State) : ((burstRead r n s).2).channel = s.channel := by simp [burstRead]
@[simp] theorem burstRead_irqEn (r : Byte) (n : Nat) (s : State) : ((burstRead r n s).2).irqEn = s.irqEn := by simp [burstRead]
@[simp] theorem burstRead_irqPend (r : Byte) (n : Nat) (s : State) : ((burstRead r n s).2).irqPend = s.irqPend := by simp [burstRead]
@[simp] theorem burstRead_pinPrev (r : Byte) (n : Nat) (s : State) : ((burstRead r n s).2).pinPrev = s.pinPrev := by simp [burstRead]
@[simp] theorem burstRead_txFault (r : Byte) (n : Nat) (s : State) : ((burstRead r n s).2).txFault = s.txFault := by simp [burstRead]
@[simp] theorem burstRead_txBuf (r : Byte) (n : Nat) (s : State) : ((burstRead r n s).2).txBuf = s.txBuf := by simp [burstRead]
@[simp] theorem burstRead_txLen (r : Byte) (n : Nat) (s : State) : ((burstRead r n s).2).txLen = s.txLen := by simp [burstRead]
@[simp] theorem burstRead_rxBuf (r : Byte) (n : Nat) (s : State) : ((burstRead r n s).2).rxBuf = s.rxBuf := by simp [burstRead]
@[simp] theorem burstRead_rxLen (r : Byte) (n : Nat) (s : State) : ((burstRead r n s).2).rxLen = s.rxLen := by simp [burstRead]
@[simp] theorem burstRead_rxRssi (r : Byte) (n : Nat) (s : State) : ((burstRead r n s).2).rxRssi = s.rxRssi := by simp [burstRead]
@[simp] theorem burstRead_rxLqi (r : Byte) (n : Nat) (s : State) : ((burstRead r n s).2).rxLqi = s.rxLqi := by simp [burstRead]
@[simp] theorem burstRead_statRx (r : Byte) (n : Nat) (s : State) : ((burstRead r n s).2).statRx = s.statRx := by simp [burstRead]
@[simp] theorem burstRead_statCrcFail (r : Byte) (n : Nat) (s : State) : ((burstRead r n s).2).statCrcFail = s.statCrcFail := by simp [burstRead]
@[simp] theorem burstRead_statRxWhileTx (r : Byte) (n : Nat) (s : State) : ((burstRead r n s).2).statRxWhileTx = s.statRxWhileTx := by simp [burstRead]
@[simp] theorem burstRead_statTx (r : Byte) (n : Nat) (s : State) : ((burstRead r n s).2).statTx = s.statTx := by simp [burstRead]
@[simp] theorem burstRead_pos (r : Byte) (n : Nat) (s : State) : ((burstRead r n s).2).pos = s.pos := by simp [burstRead]
@[simp] theorem burstRead_pollK (r : Byte) (n : Nat) (s : State) : ((burstRead r n s).2).pollK = s.pollK := by simp [burstRead]
@[simp] theorem burstRead_retry (r : Byte) (n : Nat) (s : State) : ((burstRead r n s).2).retry = s.retry := by simp [burstRead]
@[simp] theorem burstRead_hostIn (r : Byte) (n : Nat) (s : State) : ((burstRead r n s).2).hostIn = s.hostIn := by simp [burstRead]
@[simp] theorem burstRead_stamp (r : Byte) (n : Nat) (s : State) : ((burstRead r n s).2).stamp = s.stamp := by simp [burstRead]
@[simp] theorem burstRead_copyN (r : Byte) (n : Nat) (s : State) : ((burstRead r n s).2).copyN = s.copyN := by simp [burstRead]
@[simp] theorem burstRead_copyRssi (r : Byte) (n : Nat) (s : State) : ((burstRead r n s).2).copyRssi = s.copyRssi := by simp [burstRead]
@[simp] theorem burstRead_copyLqi (r : Byte) (n : Nat) (s : State) : ((burstRead r n s).2).copyLqi = s.copyLqi := by simp [burstRead]
@[simp] theorem burstRead_copyIdx (r : Byte) (n : Nat) (s : State) : ((burstRead r n s).2).copyIdx = s.copyIdx := by simp [burstRead]
@[simp] theorem burstRead_evtPin (r : Byte) (n : Nat) (s : State) : ((burstRead r n s).2).evtPin = s.evtPin := by simp [burstRead]
@[simp] theorem burstRead_port (r : Byte) (n : Nat) (s : State) : ((burstRead r n s).2).port = s.port := by simp [burstRead]
@[simp] theorem burstRead_upperPull (r : Byte) (n : Nat) (s : State) : ((burstRead r n s).2).upperPull = s.upperPull := by simp [burstRead]
@[simp] theorem burstRead_sched (r : Byte) (n : Nat) (s : State) : ((burstRead r n s).2).sched = s.sched := by simp [burstRead]
@[simp] theorem burstRead_hostOut (r : Byte) (n : Nat) (s : State) : ((burstRead r n s).2).hostOut = s.hostOut := by simp [burstRead]
@[simp] theorem burstRead_busTrace (r : Byte) (n : Nat) (s : State) : ((burstRead r n s).2).busTrace = s.busTrace ++ [.brd r (burstRead r n s).1] := by simp [burstRead]
@[simp] theorem burstRead_events (r : Byte) (n : Nat) (s : State) : ((burstRead r n s).2).events = s.events := by simp [burstRead]
@[simp] theorem burstRead_upperCopies (r : Byte) (n : Nat) (s : State) : ((burstRead r n s).2).upperCopies = s.upperCopies := by simp [burstRead]
@[simp] theorem burstRead_params (r : Byte) (n : Nat) (s : State) : ((burstRead r n s).2).params = s.params := by simp [burstRead]

/-! `rxDeliver` -/

@[simp] theorem rxDeliver_state (n rssi : Byte) (q : BitVec 7) (s : State) : (rxDeliver n rssi q s).state = s.state := by simp [rxDeliver]
@[simp] theorem rxDeliver_nodeAddr (n rssi : Byte) (q : BitVec 7) (s : State) : (rxDeliver n rssi q s).nodeAddr = s.nodeAddr := by simp [rxDeliver]
@[simp] theorem rxDeliver_channel (n rssi : Byte) (q : BitVec 7) (s : State) : (rxDeliver n rssi q s).channel = s.channel := by simp [rxDeliver]
@[simp] theorem rxDeliver_irqEn (n rssi : Byte) (q : BitVec 7) (s : State) : (rxDeliver n rssi q s).irqEn = s.irqEn := by simp [rxDeliver]
@[simp] theorem rxDeliver_irqPend (n rssi : Byte) (q : BitVec 7) (s : State) : (rxDeliver n rssi q s).irqPend = s.irqPend := by simp [rxDeliver]
@[simp] theorem rxDeliver_pinPrev (n rssi : Byte) (q : BitVec 7) (s : State) : (rxDeliver n rssi q s).pinPrev = s.pinPrev := by simp [rxDeliver]
@[simp] theorem rxDeliver_txFault (n rssi : Byte) (q : BitVec 7) (s : State) : (rxDeliver n rssi q s).txFault = s.txFault := by simp [rxDeliver]
@[simp] theorem rxDeliver_txBuf (n rssi : Byte) (q : BitVec 7) (s : State) : (rxDeliver n rssi q s).txBuf = s.txBuf := by simp [rxDeliver]
@[simp] theorem rxDeliver_txLen (n rssi : Byte) (q : BitVec 7) (s : State) : (rxDeliver n rssi q s).txLen = s.txLen := by simp [rxDeliver]
@[simp] theorem rxDeliver_rxLen (n rssi : Byte) (q : BitVec 7) (s : State) : (rxDeliver n rssi q s).rxLen = n := by simp [rxDeliver]
@[simp] theorem rxDeliver_rxRssi (n rssi : Byte) (q : BitVec 7) (s : State) : (rxDeliver n rssi q s).rxRssi = rssi := by simp [rxDeliver]
@[simp] theorem rxDeliver_rxLqi (n rssi : Byte) (q : BitVec 7) (s : State) : (rxDeliver n rssi q s).rxLqi = q := by simp [rxDeliver]
@[simp] theorem rxDeliver_statRx (n rssi : Byte) (q : BitVec 7) (s : State) : (rxDeliver n rssi q s).statRx = s.statRx + 1 := by simp [rxDeliver]
@[simp] theorem rxDeliver_statCrcFail (n rssi : Byte) (q : BitVec 7) (s : State) : (rxDeliver n rssi q s).statCrcFail = s.statCrcFail := by simp [rxDeliver]
@[simp] theorem rxDeliver_statRxWhileTx (n rssi : Byte) (q : BitVec 7) (s : State) : (rxDeliver n rssi q s).statRxWhileTx = s.statRxWhileTx := by simp [rxDeliver]
@[simp] theorem rxDeliver_statTx (n rssi : Byte) (q : BitVec 7) (s : State) : (rxDeliver n rssi q s).statTx = s.statTx := by simp [rxDeliver]
@[simp] theorem rxDeliver_pos (n rssi : Byte) (q : BitVec 7) (s : State) : (rxDeliver n rssi q s).pos = s.pos := by simp [rxDeliver]
@[simp] theorem rxDeliver_pollK (n rssi : Byte) (q : BitVec 7) (s : State) : (rxDeliver n rssi q s).pollK = s.pollK := by simp [rxDeliver]
@[simp] theorem rxDeliver_retry (n rssi : Byte) (q : BitVec 7) (s : State) : (rxDeliver n rssi q s).retry = s.retry := by simp [rxDeliver]
@[simp] theorem rxDeliver_hostIn (n rssi : Byte) (q : BitVec 7) (s : State) : (rxDeliver n rssi q s).hostIn = s.hostIn := by simp [rxDeliver]
@[simp] theorem rxDeliver_stamp (n rssi : Byte) (q : BitVec 7) (s : State) : (rxDeliver n rssi q s).stamp = s.stamp := by simp [rxDeliver]
@[simp] theorem rxDeliver_copyN (n rssi : Byte) (q : BitVec 7) (s : State) : (rxDeliver n rssi q s).copyN = s.copyN := by simp [rxDeliver]
@[simp] theorem rxDeliver_copyRssi (n rssi : Byte) (q : BitVec 7) (s : State) : (rxDeliver n rssi q s).copyRssi = s.copyRssi := by simp [rxDeliver]
@[simp] theorem rxDeliver_copyLqi (n rssi : Byte) (q : BitVec 7) (s : State) : (rxDeliver n rssi q s).copyLqi = s.copyLqi := by simp [rxDeliver]
@[simp] theorem rxDeliver_copyIdx (n rssi : Byte) (q : BitVec 7) (s : State) : (rxDeliver n rssi q s).copyIdx = s.copyIdx := by simp [rxDeliver]
@[simp] theorem rxDeliver_evtPin (n rssi : Byte) (q : BitVec 7) (s : State) : (rxDeliver n rssi q s).evtPin = s.evtPin := by simp [rxDeliver]
@[simp] theorem rxDeliver_port (n rssi : Byte) (q : BitVec 7) (s : State) : (rxDeliver n rssi q s).port = s.port := by simp [rxDeliver]
@[simp] theorem rxDeliver_upperPull (n rssi : Byte) (q : BitVec 7) (s : State) : (rxDeliver n rssi q s).upperPull = s.upperPull := by simp [rxDeliver]
@[simp] theorem rxDeliver_sched (n rssi : Byte) (q : BitVec 7) (s : State) : (rxDeliver n rssi q s).sched = s.sched := by simp [rxDeliver]
@[simp] theorem rxDeliver_hostOut (n rssi : Byte) (q : BitVec 7) (s : State) : (rxDeliver n rssi q s).hostOut = s.hostOut := by simp [rxDeliver]
@[simp] theorem rxDeliver_events (n rssi : Byte) (q : BitVec 7) (s : State) : (rxDeliver n rssi q s).events = s.events ++ [.frameAvailable] := by simp [rxDeliver]
@[simp] theorem rxDeliver_params (n rssi : Byte) (q : BitVec 7) (s : State) : (rxDeliver n rssi q s).params = s.params := by simp [rxDeliver]

/-! `rxPath` -/

@[simp] theorem rxPath_state (s : State) : ((rxPath s).2).state = s.state := by
  simp only [rxPath, rxMetadata, rxIntegrity]
  repeat' split
  all_goals simp
@[simp] theorem rxPath_nodeAddr (s : State) : ((rxPath s).2).nodeAddr = s.nodeAddr := by
  simp only [rxPath, rxMetadata, rxIntegrity]
  repeat' split
  all_goals simp
@[simp] theorem rxPath_channel (s : State) : ((rxPath s).2).channel = s.channel := by
  simp only [rxPath, rxMetadata, rxIntegrity]
  repeat' split
  all_goals simp
@[simp] theorem rxPath_irqEn (s : State) : ((rxPath s).2).irqEn = s.irqEn := by
  simp only [rxPath, rxMetadata, rxIntegrity]
  repeat' split
  all_goals simp
@[simp] theorem rxPath_irqPend (s : State) : ((rxPath s).2).irqPend = s.irqPend := by
  simp only [rxPath, rxMetadata, rxIntegrity]
  repeat' split
  all_goals simp
@[simp] theorem rxPath_pinPrev (s : State) : ((rxPath s).2).pinPrev = s.pinPrev := by
  simp only [rxPath, rxMetadata, rxIntegrity]
  repeat' split
  all_goals simp
@[simp] theorem rxPath_txFault (s : State) : ((rxPath s).2).txFault = s.txFault := by
  simp only [rxPath, rxMetadata, rxIntegrity]
  repeat' split
  all_goals simp
@[simp] theorem rxPath_txBuf (s : State) : ((rxPath s).2).txBuf = s.txBuf := by
  simp only [rxPath, rxMetadata, rxIntegrity]
  repeat' split
  all_goals simp
@[simp] theorem rxPath_txLen (s : State) : ((rxPath s).2).txLen = s.txLen := by
  simp only [rxPath, rxMetadata, rxIntegrity]
  repeat' split
  all_goals simp
@[simp] theorem rxPath_statRxWhileTx (s : State) : ((rxPath s).2).statRxWhileTx = s.statRxWhileTx := by
  simp only [rxPath, rxMetadata, rxIntegrity]
  repeat' split
  all_goals simp
@[simp] theorem rxPath_statTx (s : State) : ((rxPath s).2).statTx = s.statTx := by
  simp only [rxPath, rxMetadata, rxIntegrity]
  repeat' split
  all_goals simp
@[simp] theorem rxPath_pos (s : State) : ((rxPath s).2).pos = s.pos := by
  simp only [rxPath, rxMetadata, rxIntegrity]
  repeat' split
  all_goals simp
@[simp] theorem rxPath_pollK (s : State) : ((rxPath s).2).pollK = s.pollK := by
  simp only [rxPath, rxMetadata, rxIntegrity]
  repeat' split
  all_goals simp
@[simp] theorem rxPath_retry (s : State) : ((rxPath s).2).retry = s.retry := by
  simp only [rxPath, rxMetadata, rxIntegrity]
  repeat' split
  all_goals simp
@[simp] theorem rxPath_hostIn (s : State) : ((rxPath s).2).hostIn = s.hostIn := by
  simp only [rxPath, rxMetadata, rxIntegrity]
  repeat' split
  all_goals simp
@[simp] theorem rxPath_stamp (s : State) : ((rxPath s).2).stamp = s.stamp := by
  simp only [rxPath, rxMetadata, rxIntegrity]
  repeat' split
  all_goals simp
@[simp] theorem rxPath_copyN (s : State) : ((rxPath s).2).copyN = s.copyN := by
  simp only [rxPath, rxMetadata, rxIntegrity]
  repeat' split
  all_goals simp
@[simp] theorem rxPath_copyRssi (s : State) : ((rxPath s).2).copyRssi = s.copyRssi := by
  simp only [rxPath, rxMetadata, rxIntegrity]
  repeat' split
  all_goals simp
@[simp] theorem rxPath_copyLqi (s : State) : ((rxPath s).2).copyLqi = s.copyLqi := by
  simp only [rxPath, rxMetadata, rxIntegrity]
  repeat' split
  all_goals simp
@[simp] theorem rxPath_copyIdx (s : State) : ((rxPath s).2).copyIdx = s.copyIdx := by
  simp only [rxPath, rxMetadata, rxIntegrity]
  repeat' split
  all_goals simp
@[simp] theorem rxPath_evtPin (s : State) : ((rxPath s).2).evtPin = s.evtPin := by
  simp only [rxPath, rxMetadata, rxIntegrity]
  repeat' split
  all_goals simp
@[simp] theorem rxPath_port (s : State) : ((rxPath s).2).port = s.port := by
  simp only [rxPath, rxMetadata, rxIntegrity]
  repeat' split
  all_goals simp
@[simp] theorem rxPath_upperPull (s : State) : ((rxPath s).2).upperPull = s.upperPull := by
  simp only [rxPath, rxMetadata, rxIntegrity]
  repeat' split
  all_goals simp
@[simp] theorem rxPath_sched (s : State) : ((rxPath s).2).sched = s.sched := by
  simp only [rxPath, rxMetadata, rxIntegrity]
  repeat' split
  all_goals simp
@[simp] theorem rxPath_hostOut (s : State) : ((rxPath s).2).hostOut = s.hostOut := by
  simp only [rxPath, rxMetadata, rxIntegrity]
  repeat' split
  all_goals simp
@[simp] theorem rxPath_params (s : State) : ((rxPath s).2).params = s.params := by
  simp only [rxPath, rxMetadata, rxIntegrity]
  repeat' split
  all_goals simp

/-! `rowRxComplete` -/

@[simp] theorem rowRxComplete_state (s : State) : (rowRxComplete s).state = RadioState.receiving.code := by simp [rowRxComplete]
@[simp] theorem rowRxComplete_nodeAddr (s : State) : (rowRxComplete s).nodeAddr = s.nodeAddr := by simp [rowRxComplete]
@[simp] theorem rowRxComplete_channel (s : State) : (rowRxComplete s).channel = s.channel := by simp [rowRxComplete]
@[simp] theorem rowRxComplete_irqEn (s : State) : (rowRxComplete s).irqEn = s.irqEn := by simp [rowRxComplete]
@[simp] theorem rowRxComplete_irqPend (s : State) : (rowRxComplete s).irqPend = s.irqPend := by simp [rowRxComplete]
@[simp] theorem rowRxComplete_pinPrev (s : State) : (rowRxComplete s).pinPrev = s.pinPrev := by simp [rowRxComplete]
@[simp] theorem rowRxComplete_txFault (s : State) : (rowRxComplete s).txFault = s.txFault := by simp [rowRxComplete]
@[simp] theorem rowRxComplete_txBuf (s : State) : (rowRxComplete s).txBuf = s.txBuf := by simp [rowRxComplete]
@[simp] theorem rowRxComplete_txLen (s : State) : (rowRxComplete s).txLen = s.txLen := by simp [rowRxComplete]
@[simp] theorem rowRxComplete_statRxWhileTx (s : State) : (rowRxComplete s).statRxWhileTx = s.statRxWhileTx := by simp [rowRxComplete]
@[simp] theorem rowRxComplete_statTx (s : State) : (rowRxComplete s).statTx = s.statTx := by simp [rowRxComplete]
@[simp] theorem rowRxComplete_pos (s : State) : (rowRxComplete s).pos = s.pos := by simp [rowRxComplete]
@[simp] theorem rowRxComplete_pollK (s : State) : (rowRxComplete s).pollK = s.pollK := by simp [rowRxComplete]
@[simp] theorem rowRxComplete_retry (s : State) : (rowRxComplete s).retry = s.retry := by simp [rowRxComplete]
@[simp] theorem rowRxComplete_hostIn (s : State) : (rowRxComplete s).hostIn = s.hostIn := by simp [rowRxComplete]
@[simp] theorem rowRxComplete_stamp (s : State) : (rowRxComplete s).stamp = s.stamp := by simp [rowRxComplete]
@[simp] theorem rowRxComplete_copyN (s : State) : (rowRxComplete s).copyN = s.copyN := by simp [rowRxComplete]
@[simp] theorem rowRxComplete_copyRssi (s : State) : (rowRxComplete s).copyRssi = s.copyRssi := by simp [rowRxComplete]
@[simp] theorem rowRxComplete_copyLqi (s : State) : (rowRxComplete s).copyLqi = s.copyLqi := by simp [rowRxComplete]
@[simp] theorem rowRxComplete_copyIdx (s : State) : (rowRxComplete s).copyIdx = s.copyIdx := by simp [rowRxComplete]
@[simp] theorem rowRxComplete_evtPin (s : State) : (rowRxComplete s).evtPin = s.evtPin := by simp [rowRxComplete]
@[simp] theorem rowRxComplete_port (s : State) : (rowRxComplete s).port = s.port := by simp [rowRxComplete]
@[simp] theorem rowRxComplete_upperPull (s : State) : (rowRxComplete s).upperPull = s.upperPull := by simp [rowRxComplete]
@[simp] theorem rowRxComplete_sched (s : State) : (rowRxComplete s).sched = s.sched := by simp [rowRxComplete]
@[simp] theorem rowRxComplete_hostOut (s : State) : (rowRxComplete s).hostOut = s.hostOut := by simp [rowRxComplete]
@[simp] theorem rowRxComplete_params (s : State) : (rowRxComplete s).params = s.params := by simp [rowRxComplete]

/-! `schedule` -/

@[simp] theorem schedule_state (ms : List Move) (s : State) : (s.schedule ms).state = s.state := rfl
@[simp] theorem schedule_nodeAddr (ms : List Move) (s : State) : (s.schedule ms).nodeAddr = s.nodeAddr := rfl
@[simp] theorem schedule_channel (ms : List Move) (s : State) : (s.schedule ms).channel = s.channel := rfl
@[simp] theorem schedule_irqEn (ms : List Move) (s : State) : (s.schedule ms).irqEn = s.irqEn := rfl
@[simp] theorem schedule_irqPend (ms : List Move) (s : State) : (s.schedule ms).irqPend = s.irqPend := rfl
@[simp] theorem schedule_pinPrev (ms : List Move) (s : State) : (s.schedule ms).pinPrev = s.pinPrev := rfl
@[simp] theorem schedule_txFault (ms : List Move) (s : State) : (s.schedule ms).txFault = s.txFault := rfl
@[simp] theorem schedule_txBuf (ms : List Move) (s : State) : (s.schedule ms).txBuf = s.txBuf := rfl
@[simp] theorem schedule_txLen (ms : List Move) (s : State) : (s.schedule ms).txLen = s.txLen := rfl
@[simp] theorem schedule_rxBuf (ms : List Move) (s : State) : (s.schedule ms).rxBuf = s.rxBuf := rfl
@[simp] theorem schedule_rxLen (ms : List Move) (s : State) : (s.schedule ms).rxLen = s.rxLen := rfl
@[simp] theorem schedule_rxRssi (ms : List Move) (s : State) : (s.schedule ms).rxRssi = s.rxRssi := rfl
@[simp] theorem schedule_rxLqi (ms : List Move) (s : State) : (s.schedule ms).rxLqi = s.rxLqi := rfl
@[simp] theorem schedule_statRx (ms : List Move) (s : State) : (s.schedule ms).statRx = s.statRx := rfl
@[simp] theorem schedule_statCrcFail (ms : List Move) (s : State) : (s.schedule ms).statCrcFail = s.statCrcFail := rfl
@[simp] theorem schedule_statRxWhileTx (ms : List Move) (s : State) : (s.schedule ms).statRxWhileTx = s.statRxWhileTx := rfl
@[simp] theorem schedule_statTx (ms : List Move) (s : State) : (s.schedule ms).statTx = s.statTx := rfl
@[simp] theorem schedule_pos (ms : List Move) (s : State) : (s.schedule ms).pos = s.pos := rfl
@[simp] theorem schedule_pollK (ms : List Move) (s : State) : (s.schedule ms).pollK = s.pollK := rfl
@[simp] theorem schedule_retry (ms : List Move) (s : State) : (s.schedule ms).retry = s.retry := rfl
@[simp] theorem schedule_hostIn (ms : List Move) (s : State) : (s.schedule ms).hostIn = s.hostIn := rfl
@[simp] theorem schedule_stamp (ms : List Move) (s : State) : (s.schedule ms).stamp = s.stamp := rfl
@[simp] theorem schedule_copyN (ms : List Move) (s : State) : (s.schedule ms).copyN = s.copyN := rfl
@[simp] theorem schedule_copyRssi (ms : List Move) (s : State) : (s.schedule ms).copyRssi = s.copyRssi := rfl
@[simp] theorem schedule_copyLqi (ms : List Move) (s : State) : (s.schedule ms).copyLqi = s.copyLqi := rfl
@[simp] theorem schedule_copyIdx (ms : List Move) (s : State) : (s.schedule ms).copyIdx = s.copyIdx := rfl
@[simp] theorem schedule_evtPin (ms : List Move) (s : State) : (s.schedule ms).evtPin = s.evtPin := rfl
@[simp] theorem schedule_port (ms : List Move) (s : State) : (s.schedule ms).port = s.port := rfl
@[simp] theorem schedule_answers (ms : List Move) (s : State) : (s.schedule ms).answers = s.answers := rfl
@[simp] theorem schedule_draws (ms : List Move) (s : State) : (s.schedule ms).draws = s.draws := rfl
@[simp] theorem schedule_upperPull (ms : List Move) (s : State) : (s.schedule ms).upperPull = s.upperPull := rfl
@[simp] theorem schedule_sched (ms : List Move) (s : State) : (s.schedule ms).sched = s.sched ++ ms := rfl
@[simp] theorem schedule_hostOut (ms : List Move) (s : State) : (s.schedule ms).hostOut = s.hostOut := rfl
@[simp] theorem schedule_busTrace (ms : List Move) (s : State) : (s.schedule ms).busTrace = s.busTrace := rfl
@[simp] theorem schedule_events (ms : List Move) (s : State) : (s.schedule ms).events = s.events := rfl
@[simp] theorem schedule_upperCopies (ms : List Move) (s : State) : (s.schedule ms).upperCopies = s.upperCopies := rfl
@[simp] theorem schedule_params (ms : List Move) (s : State) : (s.schedule ms).params = s.params := rfl

/-! `resetBlock` -/

@[simp] theorem resetBlock_state (tx rx : List Byte) (s : State) : (resetBlock tx rx s).state = RadioState.unknown.code := rfl
@[simp] theorem resetBlock_nodeAddr (tx rx : List Byte) (s : State) : (resetBlock tx rx s).nodeAddr = s.params.addrDefault := rfl
@[simp] theorem resetBlock_channel (tx rx : List Byte) (s : State) : (resetBlock tx rx s).channel = s.params.chanDefault := rfl
@[simp] theorem resetBlock_irqEn (tx rx : List Byte) (s : State) : (resetBlock tx rx s).irqEn = false := rfl
@[simp] theorem resetBlock_irqPend (tx rx : List Byte) (s : State) : (resetBlock tx rx s).irqPend = false := rfl
@[simp] theorem resetBlock_pinPrev (tx rx : List Byte) (s : State) : (resetBlock tx rx s).pinPrev = s.evtPin := rfl
@[simp] theorem resetBlock_txFault (tx rx : List Byte) (s : State) : (resetBlock tx rx s).txFault = false := rfl
@[simp] theorem resetBlock_txBuf (tx rx : List Byte) (s : State) : (resetBlock tx rx s).txBuf = Memory.ofBytes tx := rfl
@[simp] theorem resetBlock_txLen (tx rx : List Byte) (s : State) : (resetBlock tx rx s).txLen = 0 := rfl
@[simp] theorem resetBlock_rxBuf (tx rx : List Byte) (s : State) : (resetBlock tx rx s).rxBuf = Memory.ofBytes rx := rfl
@[simp] theorem resetBlock_rxLen (tx rx : List Byte) (s : State) : (resetBlock tx rx s).rxLen = 0 := rfl
@[simp] theorem resetBlock_rxRssi (tx rx : List Byte) (s : State) : (resetBlock tx rx s).rxRssi = 0 := rfl
@[simp] theorem resetBlock_rxLqi (tx rx : List Byte) (s : State) : (resetBlock tx rx s).rxLqi = 0 := rfl
@[simp] theorem resetBlock_statRx (tx rx : List Byte) (s : State) : (resetBlock tx rx s).statRx = 0 := rfl
@[simp] theorem resetBlock_statCrcFail (tx rx : List Byte) (s : State) : (resetBlock tx rx s).statCrcFail = 0 := rfl
@[simp] theorem resetBlock_statRxWhileTx (tx rx : List Byte) (s : State) : (resetBlock tx rx s).statRxWhileTx = 0 := rfl
@[simp] theorem resetBlock_statTx (tx rx : List Byte) (s : State) : (resetBlock tx rx s).statTx = 0 := rfl
@[simp] theorem resetBlock_pos (tx rx : List Byte) (s : State) : (resetBlock tx rx s).pos = .none := rfl
@[simp] theorem resetBlock_pollK (tx rx : List Byte) (s : State) : (resetBlock tx rx s).pollK = s.pollK := rfl
@[simp] theorem resetBlock_retry (tx rx : List Byte) (s : State) : (resetBlock tx rx s).retry = s.retry := rfl
@[simp] theorem resetBlock_hostIn (tx rx : List Byte) (s : State) : (resetBlock tx rx s).hostIn = s.hostIn := rfl
@[simp] theorem resetBlock_stamp (tx rx : List Byte) (s : State) : (resetBlock tx rx s).stamp = s.stamp := rfl
@[simp] theorem resetBlock_copyN (tx rx : List Byte) (s : State) : (resetBlock tx rx s).copyN = s.copyN := rfl
@[simp] theorem resetBlock_copyRssi (tx rx : List Byte) (s : State) : (resetBlock tx rx s).copyRssi = s.copyRssi := rfl
@[simp] theorem resetBlock_copyLqi (tx rx : List Byte) (s : State) : (resetBlock tx rx s).copyLqi = s.copyLqi := rfl
@[simp] theorem resetBlock_copyIdx (tx rx : List Byte) (s : State) : (resetBlock tx rx s).copyIdx = s.copyIdx := rfl
@[simp] theorem resetBlock_evtPin (tx rx : List Byte) (s : State) : (resetBlock tx rx s).evtPin = s.evtPin := rfl
@[simp] theorem resetBlock_port (tx rx : List Byte) (s : State) : (resetBlock tx rx s).port = s.port := rfl
@[simp] theorem resetBlock_answers (tx rx : List Byte) (s : State) : (resetBlock tx rx s).answers = s.answers := rfl
@[simp] theorem resetBlock_draws (tx rx : List Byte) (s : State) : (resetBlock tx rx s).draws = s.draws := rfl
@[simp] theorem resetBlock_upperPull (tx rx : List Byte) (s : State) : (resetBlock tx rx s).upperPull = s.upperPull := rfl
@[simp] theorem resetBlock_sched (tx rx : List Byte) (s : State) : (resetBlock tx rx s).sched = s.sched := rfl
@[simp] theorem resetBlock_hostOut (tx rx : List Byte) (s : State) : (resetBlock tx rx s).hostOut = s.hostOut := rfl
@[simp] theorem resetBlock_busTrace (tx rx : List Byte) (s : State) : (resetBlock tx rx s).busTrace = [] := rfl
@[simp] theorem resetBlock_events (tx rx : List Byte) (s : State) : (resetBlock tx rx s).events = [] := rfl
@[simp] theorem resetBlock_upperCopies (tx rx : List Byte) (s : State) : (resetBlock tx rx s).upperCopies = s.upperCopies := rfl
@[simp] theorem resetBlock_params (tx rx : List Byte) (s : State) : (resetBlock tx rx s).params = s.params := rfl

end Sys2Proof.Machine
end

