-- ==== Sys2Proof/Laws/Ops.lean ====
section
/-! SUPPORT. For each shared operation, once, everything it can do. -/

namespace Sys2Proof.Machine

/-! ### XCVR's answers -/

/-- An answer at the head of the script serves the read of its own register. -/
@[simp] theorem takeAnswer_head (a : Answer) (as : List Answer) : takeAnswer a.reg (a :: as) = some (a.value, as) := by
  simp [takeAnswer]

theorem takeAnswer_other {r : Byte} {a : Answer} (h : a.reg ≠ r) (as : List Answer) :
    takeAnswer r (a :: as) = (takeAnswer r as).map fun p => (p.1, a :: p.2) := by
  simp only [takeAnswer, if_neg h]
  cases takeAnswer r as <;> rfl

/-- Taking an answer of one register leaves those of another, in their order. -/
theorem takeAnswer_keeps {r q : Byte} {as rest : List Answer} {v : Byte} (h : takeAnswer r as = some (v, rest))
    (hq : q ≠ r) : rest.filter (fun a => a.reg == q) = as.filter (fun a => a.reg == q) := by
  induction as generalizing rest with
  | nil => cases h
  | cons a as ih =>
    by_cases ha : a.reg = r
    · simp only [takeAnswer, if_pos ha, Option.some.injEq, Prod.mk.injEq] at h
      rw [← h.2, List.filter_cons, if_neg (by simp [ha, Ne.symm hq])]
    · rw [takeAnswer_other ha, Option.map_eq_some_iff] at h
      obtain ⟨⟨w, bs⟩, hw, he⟩ := h
      cases he
      simp only [List.filter_cons, ih hw]

theorem nextAnswer_hit {s : State} {r v : Byte} {rest : List Answer} (h : takeAnswer r s.answers = some (v, rest)) :
    nextAnswer r s = (v, { s with answers := rest }) := by
  simp [nextAnswer, h]

theorem busRead_hit {s : State} {r v : Byte} {rest : List Answer} (h : takeAnswer r s.answers = some (v, rest)) :
    busRead r s = (v, { s with answers := rest, busTrace := s.busTrace ++ [.rd r v] }) := by
  simp [busRead, nextAnswer_hit h, State.record]

@[simp] theorem nextAnswers_length (r : Byte) (n : Nat) (s : State) : (nextAnswers r n s).1.length = n := by
  induction n generalizing s with
  | zero => rfl
  | succ n ih => simp [nextAnswers, ih]

/-- A byte string scripted for a register is what its next reads answer. -/
theorem nextAnswers_script {s : State} {r : Byte} {vs : List Byte} {rest : List Answer}
    (h : s.answers = vs.map (Answer.mk r) ++ rest) :
    nextAnswers r vs.length s = (vs, { s with answers := rest }) := by
  induction vs generalizing s with
  | nil => simp [nextAnswers, ← show s.answers = rest by simpa using h]
  | cons v vs ih =>
    have ht : takeAnswer r s.answers = some (v, vs.map (Answer.mk r) ++ rest) := by
      rw [h]
      exact takeAnswer_head { reg := r, value := v } _
    have ih := ih (s := { s with answers := vs.map (Answer.mk r) ++ rest }) rfl
    simp [nextAnswers, nextAnswer_hit ht, ih]

@[simp] theorem burstRead_length (r : Byte) (n : Nat) (s : State) : (burstRead r n s).1.length = n := by
  simp [burstRead]

theorem burstRead_script {s : State} {r : Byte} {vs : List Byte} {rest : List Answer}
    (h : s.answers = vs.map (Answer.mk r) ++ rest) :
    burstRead r vs.length s = (vs, { s with answers := rest, busTrace := s.busTrace ++ [.brd r vs] }) := by
  simp [burstRead, nextAnswers_script h, State.record]

/-! ### The state register -/

theorem checkState_legal {s : State} (h : s.state.toNat < numStates) (o : Outcome) : checkState s o = o := by
  simp only [checkState, if_pos h]

theorem checkState_reserved {s : State} (h : 6 ≤ s.state.toNat) (o : Outcome) :
    checkState s o = .fault .invalidState := by
  simp only [checkState, if_neg (Nat.not_lt.mpr h)]

/-- A next state comes from a legal one. -/
theorem checkState_next {s t : State} {o : Outcome} (h : checkState s o = .next t) :
    s.state.toNat < numStates ∧ o = .next t := by
  unfold checkState at h
  split at h
  · exact ⟨‹_›, h⟩
  · cases h

/-- Checking the same state twice is checking it once. -/
theorem checkState_twice {s t : State} (h : t.state = s.state) (o : Outcome) :
    checkState s (checkState t o) = checkState s o := by
  unfold checkState
  rw [h]
  split <;> rfl

theorem RadioState.code_legal (r : RadioState) : r.code.toNat < numStates := by
  cases r <;> decide

/-! ### The sequencer -/

theorem goto_quiet {s : State} (h : s.sched = []) (p : Pos) (f : State → Outcome) :
    goto p s f = f { s with pos := p } := by
  simp [goto, h]

theorem goto_pending {s : State} (h : s.sched ≠ []) (p : Pos) (f : State → Outcome) :
    goto p s f = .next { s with pos := p } := by
  have : s.sched.isEmpty = false := by cases hs : s.sched <;> simp_all
  simp [goto, this]

/-- `goto` runs the step now, or stays before it. -/
theorem goto_cases (p : Pos) (s : State) (f : State → Outcome) :
    (s.sched = [] ∧ goto p s f = f { s with pos := p }) ∨ (s.sched ≠ [] ∧ goto p s f = .next { s with pos := p }) := by
  by_cases h : s.sched = []
  · exact .inl ⟨h, goto_quiet h p f⟩
  · exact .inr ⟨h, goto_pending h p f⟩

@[simp] theorem finish_eq (r : Result) (s : State) :
    finish r s = .next { s with pos := .none, events := s.events ++ [.done r none] } := rfl

@[simp] theorem finishWith_eq (r : Result) (m : RxMeta) (s : State) :
    finishWith r m s = .next { s with pos := .none, events := s.events ++ [.done r (some m)] } := rfl

theorem accept_free {s : State} (hl : s.state.toNat < numStates) (h : s.pos = .none) (p : Pos) (b : List Byte)
    (f : State → Outcome) : accept p b s f = goto p { s with hostIn := b } f := by
  rw [accept, checkState_legal hl, if_pos h]

theorem accept_quiet {s : State} (hl : s.state.toNat < numStates) (h : s.pos = .none) (hq : s.sched = []) (p : Pos)
    (b : List Byte) (f : State → Outcome) : accept p b s f = f { s with hostIn := b, pos := p } := by
  rw [accept_free hl h]
  exact goto_quiet (s := { s with hostIn := b }) hq p f

theorem accept_pending {s : State} (hl : s.state.toNat < numStates) (h : s.pos = .none) (hq : s.sched ≠ []) (p : Pos)
    (b : List Byte) (f : State → Outcome) : accept p b s f = .next { s with hostIn := b, pos := p } := by
  rw [accept_free hl h]
  exact goto_pending (s := { s with hostIn := b }) hq p f

theorem accept_busy {s : State} (hl : s.state.toNat < numStates) (h : s.pos ≠ .none) (p : Pos) (b : List Byte)
    (f : State → Outcome) : accept p b s f = .refused .portBusy := by
  rw [accept, checkState_legal hl, if_neg h]

theorem acceptDone_free {s : State} (hl : s.state.toNat < numStates) (h : s.pos = .none) (r : Result) :
    acceptDone r s = .next { s with pos := .none, events := s.events ++ [.done r none] } := by
  rw [acceptDone, checkState_legal hl, if_pos h, finish_eq]

theorem acceptDone_busy {s : State} (hl : s.state.toNat < numStates) (h : s.pos ≠ .none) (r : Result) :
    acceptDone r s = .refused .portBusy := by
  rw [acceptDone, checkState_legal hl, if_neg h]

/-! ### Dispatch -/

theorem takeDispatch_ready {s : State} {k : BitVec 4} (hl : s.state.toNat < numStates) (hr : dispatchReady s = true)
    (hk : dispatchKey s = k) (row : State → State) : takeDispatch k row s = .next (row (dispatchEntry s)) := by
  rw [takeDispatch, checkState_legal hl, if_pos ⟨hr, hk⟩, dispatchReturn]

/-- A taken dispatch was ready, had its key, and ran its row after the entry. -/
theorem takeDispatch_next {s t : State} {k : BitVec 4} {row : State → State} (h : takeDispatch k row s = .next t) :
    s.state.toNat < numStates ∧ dispatchReady s = true ∧ dispatchKey s = k ∧ t = row (dispatchEntry s) := by
  obtain ⟨hl, h⟩ := checkState_next h
  split at h
  · rename_i hc
    exact ⟨hl, hc.1, hc.2, by simpa [dispatchReturn] using h.symm⟩
  · cases h

theorem dispatchReady_iff (s : State) : dispatchReady s = true ↔ s.irqEn = true ∧ s.irqPend = true := by
  simp [dispatchReady]

/-- The key's number: twice the state code, plus the level (30_encoding.md R90). -/
theorem dispatchKey_toNat (s : State) : (dispatchKey s).toNat = 2 * s.state.toNat + s.evtPin.toNat := by
  unfold dispatchKey
  generalize s.state = x
  generalize s.evtPin = b
  revert x b
  decide

/-! ### The schedule -/

theorem undisturbed_next {f : State → Outcome} {rest : List Move} {s t : State} (h : undisturbed f rest s = .next t) :
    ∃ u, f { s with sched := [] } = .next u ∧ t = { u with sched := rest } := by
  unfold undisturbed at h
  split at h
  · rename_i u hu
    exact ⟨u, hu, by simpa using h.symm⟩
  · cases h
  · cases h

theorem step_legal {s : State} (h : s.state.toNat < numStates) : step s = nextStep s := checkState_legal h _

theorem step_reserved {s : State} (h : 6 ≤ s.state.toNat) : step s = .fault .invalidState := checkState_reserved h _

/-- A step that answers a next state starts in a legal one. -/
theorem step_next {s t : State} (h : step s = .next t) : s.state.toNat < numStates ∧ nextStep s = .next t :=
  checkState_next h

theorem nextStep_move {s : State} {m : Move} {rest : List Move} (h : s.sched = m :: rest) :
    nextStep s = moveStep m { s with sched := rest } := by
  simp only [nextStep, h]

theorem nextStep_rest {s : State} (h : s.sched = []) : nextStep s = restStep s := by
  simp only [nextStep, h]

/-- A last `stop` stays, and the step is the stopped TASK's. -/
theorem nextStep_stopped {s : State} (h : s.sched = [.stop]) : nextStep s = stoppedStep s := by
  rw [nextStep_move h]
  exact congrArg stoppedStep (by cases s; simp_all)

/-- A `stop` that another move follows is no act. -/
theorem nextStep_stop {s : State} {m : Move} {rest : List Move} (h : s.sched = .stop :: m :: rest) :
    nextStep s = .next { s with sched := m :: rest } := nextStep_move h

theorem stoppedStep_yield {s : State} (h : s.pos.isYield = true) : stoppedStep s = isrStep s := by
  simp [stoppedStep, h]

theorem stoppedStep_block {s : State} (h : s.pos.isYield = false) : stoppedStep s = resumeOp s := by
  simp [stoppedStep, h]

theorem taskWaits_iff (s : State) : taskWaits s = true ↔ s.pos = .none ∧ portCommand s = none := by
  simp [taskWaits]

/-! ### GET -/

/-- Which value each option id has (44_adapter.md R170 to R176). -/
theorem optionValue_length {opt : BitVec 4} {s : State} {b : List Byte} (h : optionValue opt s = some b) : b.length ≤ 8 := by
  unfold optionValue at h
  split at h <;> simp_all [le16, iidOf]
  all_goals (subst h; simp)

end Sys2Proof.Machine
end

