-- ==== Sys2Proof/Laws/PerInstr.lean ====
section
/-! SUPPORT. Facts stated for every instruction, one lemma per constructor. Family TableRow: an
instruction's first encoded byte has the match and mask of its row of spec/opcode_table.json. -/

namespace Sys2Proof.Laws.TableRow

/-- The mask and the match of each row of spec/opcode_table.json. -/
def row : Instr → Byte × Byte
  | .init => (0xFF, 0x10)
  | .send _ => (0xFF, 0x20)
  | .receive _ => (0xFF, 0x30)
  | .getDeviceType _ => (0xFF, 0x40)
  | .getProto _ => (0xFF, 0x41)
  | .getChannel _ => (0xFF, 0x42)
  | .getAddress _ => (0xFF, 0x43)
  | .getMaxFrame _ => (0xFF, 0x44)
  | .getIid _ => (0xFF, 0x45)
  | .getOpt6 _ => (0xFF, 0x46)
  | .getOpt7 _ => (0xFF, 0x47)
  | .getOpt8 _ => (0xFF, 0x48)
  | .getOpt9 _ => (0xFF, 0x49)
  | .getOptA _ => (0xFF, 0x4A)
  | .getOptB _ => (0xFF, 0x4B)
  | .getOptC _ => (0xFF, 0x4C)
  | .getOptD _ => (0xFF, 0x4D)
  | .getOptE _ => (0xFF, 0x4E)
  | .getOptF _ => (0xFF, 0x4F)
  | .setDeviceType _ => (0xFF, 0x50)
  | .setProto _ => (0xFF, 0x51)
  | .setChannel _ => (0xFF, 0x52)
  | .setAddress _ => (0xFF, 0x53)
  | .setMaxFrame _ => (0xFF, 0x54)
  | .setIid _ => (0xFF, 0x55)
  | .setOpt6 _ => (0xFF, 0x56)
  | .setOpt7 _ => (0xFF, 0x57)
  | .setOpt8 _ => (0xFF, 0x58)
  | .setOpt9 _ => (0xFF, 0x59)
  | .setOptA _ => (0xFF, 0x5A)
  | .setOptB _ => (0xFF, 0x5B)
  | .setOptC _ => (0xFF, 0x5C)
  | .setOptD _ => (0xFF, 0x5D)
  | .setOptE _ => (0xFF, 0x5E)
  | .setOptF _ => (0xFF, 0x5F)
  | .illegalOpc0 _ => (0xF0, 0x00)
  | .illegalInit1 => (0xFF, 0x11)
  | .illegalInit2 _ => (0xFE, 0x12)
  | .illegalInit4 _ => (0xFC, 0x14)
  | .illegalInit8 _ => (0xF8, 0x18)
  | .illegalSend1 => (0xFF, 0x21)
  | .illegalSend2 _ => (0xFE, 0x22)
  | .illegalSend4 _ => (0xFC, 0x24)
  | .illegalSend8 _ => (0xF8, 0x28)
  | .illegalReceive1 => (0xFF, 0x31)
  | .illegalReceive2 _ => (0xFE, 0x32)
  | .illegalReceive4 _ => (0xFC, 0x34)
  | .illegalReceive8 _ => (0xF8, 0x38)
  | .illegalOpc6 _ => (0xE0, 0x60)
  | .illegalOpc8 _ => (0x80, 0x80)
  | .dispatchUnhandled _ => (0x0C, 0x00)
  | .dispatchRxRearm => (0x0F, 0x04)
  | .dispatchRxStart => (0x0F, 0x05)
  | .dispatchRxComplete => (0x0F, 0x06)
  | .dispatchMissedEdge => (0x0F, 0x07)
  | .dispatchTxDone => (0x0F, 0x08)
  | .dispatchTxBusy => (0x0F, 0x09)
  | .dispatchUnhandledPowerDown _ => (0x0E, 0x0A)
  | .dispatchInvalid _ => (0x0C, 0x0C)
  | .recRd _ _ => (0xE0, 0x00)
  | .recWr _ _ => (0xE0, 0x20)
  | .recBrd _ _ => (0xE0, 0x40)
  | .recBwr _ _ => (0xE0, 0x60)
  | .recSt _ => (0xE0, 0x80)
  | .recReserved5 => (0xE0, 0xA0)
  | .recReserved6 _ => (0xC0, 0xC0)

/-- The first encoded byte of an instruction agrees with its table row. -/
abbrev Statement (i : Instr) : Prop := ((encode i).headD 0) &&& (row i).1 = (row i).2

theorem init : Statement .init := by
  show (0x10 : Byte) &&& 0xFF = 0x10; decide

theorem send (f : List Byte) : Statement (.send f) := by
  show (0x20 : Byte) &&& 0xFF = 0x20; decide

theorem receive (m : Byte) : Statement (.receive m) := by
  show (0x30 : Byte) &&& 0xFF = 0x30; decide

theorem getDeviceType (m : Byte) : Statement (.getDeviceType m) := by
  show (0x40 : Byte) &&& 0xFF = 0x40; decide

theorem getProto (m : Byte) : Statement (.getProto m) := by
  show (0x41 : Byte) &&& 0xFF = 0x41; decide

theorem getChannel (m : Byte) : Statement (.getChannel m) := by
  show (0x42 : Byte) &&& 0xFF = 0x42; decide

theorem getAddress (m : Byte) : Statement (.getAddress m) := by
  show (0x43 : Byte) &&& 0xFF = 0x43; decide

theorem getMaxFrame (m : Byte) : Statement (.getMaxFrame m) := by
  show (0x44 : Byte) &&& 0xFF = 0x44; decide

theorem getIid (m : Byte) : Statement (.getIid m) := by
  show (0x45 : Byte) &&& 0xFF = 0x45; decide

theorem getOpt6 (m : Byte) : Statement (.getOpt6 m) := by
  show (0x46 : Byte) &&& 0xFF = 0x46; decide

theorem getOpt7 (m : Byte) : Statement (.getOpt7 m) := by
  show (0x47 : Byte) &&& 0xFF = 0x47; decide

theorem getOpt8 (m : Byte) : Statement (.getOpt8 m) := by
  show (0x48 : Byte) &&& 0xFF = 0x48; decide

theorem getOpt9 (m : Byte) : Statement (.getOpt9 m) := by
  show (0x49 : Byte) &&& 0xFF = 0x49; decide

theorem getOptA (m : Byte) : Statement (.getOptA m) := by
  show (0x4A : Byte) &&& 0xFF = 0x4A; decide

theorem getOptB (m : Byte) : Statement (.getOptB m) := by
  show (0x4B : Byte) &&& 0xFF = 0x4B; decide

theorem getOptC (m : Byte) : Statement (.getOptC m) := by
  show (0x4C : Byte) &&& 0xFF = 0x4C; decide

theorem getOptD (m : Byte) : Statement (.getOptD m) := by
  show (0x4D : Byte) &&& 0xFF = 0x4D; decide

theorem getOptE (m : Byte) : Statement (.getOptE m) := by
  show (0x4E : Byte) &&& 0xFF = 0x4E; decide

theorem getOptF (m : Byte) : Statement (.getOptF m) := by
  show (0x4F : Byte) &&& 0xFF = 0x4F; decide

theorem setDeviceType (v : List Byte) : Statement (.setDeviceType v) := by
  show (0x50 : Byte) &&& 0xFF = 0x50; decide

theorem setProto (v : List Byte) : Statement (.setProto v) := by
  show (0x51 : Byte) &&& 0xFF = 0x51; decide

theorem setChannel (v : List Byte) : Statement (.setChannel v) := by
  show (0x52 : Byte) &&& 0xFF = 0x52; decide

theorem setAddress (v : List Byte) : Statement (.setAddress v) := by
  show (0x53 : Byte) &&& 0xFF = 0x53; decide

theorem setMaxFrame (v : List Byte) : Statement (.setMaxFrame v) := by
  show (0x54 : Byte) &&& 0xFF = 0x54; decide

theorem setIid (v : List Byte) : Statement (.setIid v) := by
  show (0x55 : Byte) &&& 0xFF = 0x55; decide

theorem setOpt6 (v : List Byte) : Statement (.setOpt6 v) := by
  show (0x56 : Byte) &&& 0xFF = 0x56; decide

theorem setOpt7 (v : List Byte) : Statement (.setOpt7 v) := by
  show (0x57 : Byte) &&& 0xFF = 0x57; decide

theorem setOpt8 (v : List Byte) : Statement (.setOpt8 v) := by
  show (0x58 : Byte) &&& 0xFF = 0x58; decide

theorem setOpt9 (v : List Byte) : Statement (.setOpt9 v) := by
  show (0x59 : Byte) &&& 0xFF = 0x59; decide

theorem setOptA (v : List Byte) : Statement (.setOptA v) := by
  show (0x5A : Byte) &&& 0xFF = 0x5A; decide

theorem setOptB (v : List Byte) : Statement (.setOptB v) := by
  show (0x5B : Byte) &&& 0xFF = 0x5B; decide

theorem setOptC (v : List Byte) : Statement (.setOptC v) := by
  show (0x5C : Byte) &&& 0xFF = 0x5C; decide

theorem setOptD (v : List Byte) : Statement (.setOptD v) := by
  show (0x5D : Byte) &&& 0xFF = 0x5D; decide

theorem setOptE (v : List Byte) : Statement (.setOptE v) := by
  show (0x5E : Byte) &&& 0xFF = 0x5E; decide

theorem setOptF (v : List Byte) : Statement (.setOptF v) := by
  show (0x5F : Byte) &&& 0xFF = 0x5F; decide

theorem illegalOpc0 (o : BitVec 4) : Statement (.illegalOpc0 o) := by
  revert o; decide

theorem illegalInit1 : Statement .illegalInit1 := by
  show (0x11 : Byte) &&& 0xFF = 0x11; decide

theorem illegalInit2 (l : BitVec 1) : Statement (.illegalInit2 l) := by
  revert l; decide

theorem illegalInit4 (l : BitVec 2) : Statement (.illegalInit4 l) := by
  revert l; decide

theorem illegalInit8 (l : BitVec 3) : Statement (.illegalInit8 l) := by
  revert l; decide

theorem illegalSend1 : Statement .illegalSend1 := by
  show (0x21 : Byte) &&& 0xFF = 0x21; decide

theorem illegalSend2 (l : BitVec 1) : Statement (.illegalSend2 l) := by
  revert l; decide

theorem illegalSend4 (l : BitVec 2) : Statement (.illegalSend4 l) := by
  revert l; decide

theorem illegalSend8 (l : BitVec 3) : Statement (.illegalSend8 l) := by
  revert l; decide

theorem illegalReceive1 : Statement .illegalReceive1 := by
  show (0x31 : Byte) &&& 0xFF = 0x31; decide

theorem illegalReceive2 (l : BitVec 1) : Statement (.illegalReceive2 l) := by
  revert l; decide

theorem illegalReceive4 (l : BitVec 2) : Statement (.illegalReceive4 l) := by
  revert l; decide

theorem illegalReceive8 (l : BitVec 3) : Statement (.illegalReceive8 l) := by
  revert l; decide

theorem illegalOpc6 (l : BitVec 5) : Statement (.illegalOpc6 l) := by
  revert l; decide

theorem illegalOpc8 (l : BitVec 7) : Statement (.illegalOpc8 l) := by
  revert l; decide

theorem dispatchUnhandled (k : BitVec 2) : Statement (.dispatchUnhandled k) := by
  revert k; decide

theorem dispatchRxRearm : Statement .dispatchRxRearm := by
  show (0x04 : Byte) &&& 0x0F = 0x04; decide

theorem dispatchRxStart : Statement .dispatchRxStart := by
  show (0x05 : Byte) &&& 0x0F = 0x05; decide

theorem dispatchRxComplete : Statement .dispatchRxComplete := by
  show (0x06 : Byte) &&& 0x0F = 0x06; decide

theorem dispatchMissedEdge : Statement .dispatchMissedEdge := by
  show (0x07 : Byte) &&& 0x0F = 0x07; decide

theorem dispatchTxDone : Statement .dispatchTxDone := by
  show (0x08 : Byte) &&& 0x0F = 0x08; decide

theorem dispatchTxBusy : Statement .dispatchTxBusy := by
  show (0x09 : Byte) &&& 0x0F = 0x09; decide

theorem dispatchUnhandledPowerDown (l : BitVec 1) : Statement (.dispatchUnhandledPowerDown l) := by
  revert l; decide

theorem dispatchInvalid (k : BitVec 2) : Statement (.dispatchInvalid k) := by
  revert k; decide

theorem recRd (r : Byte) (v : Byte) : Statement (.recRd r v) := by
  show (0x00 : Byte) &&& 0xE0 = 0x00; decide

theorem recWr (r : Byte) (v : Byte) : Statement (.recWr r v) := by
  show (0x20 : Byte) &&& 0xE0 = 0x20; decide

theorem recBrd (r : Byte) (b : List Byte) : Statement (.recBrd r b) := by
  show (0x40 : Byte) &&& 0xE0 = 0x40; decide

theorem recBwr (r : Byte) (b : List Byte) : Statement (.recBwr r b) := by
  show (0x60 : Byte) &&& 0xE0 = 0x60; decide

theorem recSt (c : Byte) : Statement (.recSt c) := by
  show (0x80 : Byte) &&& 0xE0 = 0x80; decide

theorem recReserved5 : Statement .recReserved5 := by
  show (0xA0 : Byte) &&& 0xE0 = 0xA0; decide

theorem recReserved6 (k : BitVec 1) : Statement (.recReserved6 k) := by
  revert k; decide

end Sys2Proof.Laws.TableRow
end

