-- ==== Sys2Proof/Laws/Send.lean ====
section
/-! SUPPORT. SEND's steps and RECEIVE's copy loop, with no move pending: what each one leads to. -/

namespace Sys2Proof.Machine

theorem eligible_iff (s : State) :
    eligible s = true ↔ s.state = RadioState.idle.code ∨ s.state = RadioState.receiving.code := by
  simp [eligible]

theorem size_of_operand {f : List Byte} (h : frameOperandWf f = true) : frameSize f = f.length := by
  cases f with
  | nil => simp [frameOperandWf] at h
  | cons l r =>
    have : r.length = l.toNat := by simpa [frameOperandWf] using h
    simp [frameSize, this]

theorem sendT5_quiet {s : State} (hq : s.sched = []) :
    sendT5 s = .next { s with
      pos := .none
      state := RadioState.transmitting.code
      irqEn := true
      statTx := s.statTx + 1
      busTrace := s.busTrace ++ [.st s.params.strobeTx]
      events := s.events ++ [.done (BitVec.ofNat 16 s.size) none] } := by
  rw [sendT5, goto_quiet (by exact hq)]
  rfl

theorem sendT6_quiet (s : State) :
    sendT6 s = .next { s with pos := .none, txFault := true, events := s.events ++ [.done errTxFail none] } := rfl

/-- T3 in any state with no move pending: the read-back decides. -/
theorem sendT3_quiet {s : State} (hq : s.sched = []) :
    sendT3 s =
      (if (busRead s.params.regTxBytes s).1 = s.txLen
        then sendT5 { (busRead s.params.regTxBytes s).2 with pos := .send .t5 }
        else sendT4 { (busRead s.params.regTxBytes s).2 with pos := .send .t4 }) := by
  by_cases h : (busRead s.params.regTxBytes s).1 = s.txLen
  · rw [sendT3, if_pos (by simpa using h), if_pos h, goto_quiet (by simpa using hq)]
  · rw [sendT3, if_neg (by simpa using h), if_neg h, goto_quiet (by simpa using hq)]

theorem sendT3_hit {s : State} (hq : s.sched = []) {rest : List Answer}
    (ha : takeAnswer s.params.regTxBytes s.answers = some (s.txLen, rest)) :
    sendT3 s = sendT5 { s with
      pos := .send .t5
      answers := rest
      busTrace := s.busTrace ++ [.rd s.params.regTxBytes s.txLen] } := by
  rw [sendT3_quiet hq, busRead_hit ha, if_pos rfl]

theorem sendT3_miss {s : State} (hq : s.sched = []) {c : Byte} {rest : List Answer}
    (ha : takeAnswer s.params.regTxBytes s.answers = some (c, rest)) (hc : c ≠ s.txLen) :
    sendT3 s = sendT4 { s with
      pos := .send .t4
      answers := rest
      busTrace := s.busTrace ++ [.rd s.params.regTxBytes c] } := by
  rw [sendT3_quiet hq, busRead_hit ha, if_neg hc]

/-- The state that T4 reads back from: flushed, rewritten, `retry` set. -/
def rewritten (s : State) : State :=
  { s with
    retry := true
    busTrace := s.busTrace ++ [.st s.params.strobeFlushTx, .bwr s.params.regTxFifo s.txBytes] }

/-- T4 in any state with no move pending. -/
theorem sendT4_quiet {s : State} (hq : s.sched = []) :
    sendT4 s =
      (if (busRead s.params.regTxBytes (rewritten s)).1 = s.txLen
        then sendT5 { (busRead s.params.regTxBytes (rewritten s)).2 with pos := .send .t5 }
        else sendT6 { (busRead s.params.regTxBytes (rewritten s)).2 with pos := .send .t6 }) := by
  have hr : burstTx { strobe s.params.strobeFlushTx s with retry := true } = rewritten s := by
    simp [burstTx, burstWrite, strobe, State.record, rewritten, State.txBytes]
  by_cases h : (busRead s.params.regTxBytes (rewritten s)).1 = s.txLen
  · simp only [sendT4, hr]
    rw [if_pos (by simpa [rewritten] using h), if_pos h, goto_quiet (by simpa [rewritten] using hq)]
  · simp only [sendT4, hr]
    rw [if_neg (by simpa [rewritten] using h), if_neg h, goto_quiet (by simpa [rewritten] using hq)]

theorem sendT4_hit {s : State} (hq : s.sched = []) {rest : List Answer}
    (ha : takeAnswer s.params.regTxBytes s.answers = some (s.txLen, rest)) :
    sendT4 s = sendT5 { s with
      pos := .send .t5
      retry := true
      answers := rest
      busTrace := s.busTrace ++ [.st s.params.strobeFlushTx, .bwr s.params.regTxFifo s.txBytes,
        .rd s.params.regTxBytes s.txLen] } := by
  rw [sendT4_quiet hq, busRead_hit (s := rewritten s) ha, if_pos rfl]
  simp [rewritten]

theorem sendT4_miss {s : State} (hq : s.sched = []) {c : Byte} {rest : List Answer}
    (ha : takeAnswer s.params.regTxBytes s.answers = some (c, rest)) (hc : c ≠ s.txLen) :
    sendT4 s = sendT6 { s with
      pos := .send .t6
      retry := true
      answers := rest
      busTrace := s.busTrace ++ [.st s.params.strobeFlushTx, .bwr s.params.regTxFifo s.txBytes,
        .rd s.params.regTxBytes c] } := by
  rw [sendT4_quiet hq, busRead_hit (s := rewritten s) ha, if_neg hc]
  simp [rewritten]

/-- S2 to T3, of a frame that passes the size check. -/
theorem sendS2_quiet {s : State} (hq : s.sched = []) (hs : s.size ≤ maxFrame) :
    sendS2 s =
      (let loaded := stampBuf (s.txBuf.writeBytes 0 (s.hostIn.take s.size)) s.nodeAddr
      sendT3 { s with
        pos := .send .t3
        state := RadioState.transmitting.code
        irqEn := false
        txBuf := loaded
        txLen := u8 s.size
        retry := false
        stamp := s.nodeAddr
        busTrace := s.busTrace ++ [.st s.params.strobeIdle, .st s.params.strobeFlushTx,
          .bwr s.params.regTxFifo (loaded.readBytes 0 s.size)] }) := by
  have hs' : ¬ 255 < s.size := by simpa using hs
  have hu : (u8 s.size).toNat = s.size := by
    rw [BitVec.toNat_ofNat]; exact Nat.mod_eq_of_lt (by simp at hs'; omega)
  simp only [State.size] at hs' hu
  simp [sendS2, sendS3, sendS3mask, sendS4, sendS5, sendT1, sendT2, goto, hq, hs', hu, State.size, fillTxBuf, burstTx,
    irqDisable, strobe, setRadio, State.record, burstWrite, State.txBytes]

theorem sendS1_quiet {s : State} (hq : s.sched = []) :
    sendS1 s = sendCheck pollMax { startPoll s with pos := .send .s1check } :=
  goto_quiet (s := startPoll s) hq _ _

theorem sendCheck_eligible {s : State} (hq : s.sched = []) (he : eligible s = true) (n : Nat) :
    sendCheck n s = sendS2 { s with pos := .send .s2 } := by
  cases n <;> simp [sendCheck, he, goto_quiet hq]

/-- The poll of a state that stays ineligible. -/
theorem sendCheck_poll {n : Nat} {s : State} (hq : s.sched = []) (he : eligible s = false) :
    sendCheck n s = .next { s with
      pos := .none
      pollK := s.pollK + n
      events := s.events ++ [.done errTimeout none] } := by
  induction n generalizing s with
  | zero => simp [sendCheck, he]
  | succ n ih =>
    simp only [sendCheck, he, goto, hq, countSleep, Bool.false_eq_true, if_false, List.isEmpty_nil, if_true]
    rw [ih (by rfl) (by exact he)]
    simp; omega

/-- From T3, whatever the transceiver answers: the commit or the permanent failure, and what both leave. -/
theorem sendT3_outcomes (s : State) (hq : s.sched = []) :
    ∃ t, sendT3 s = .next t ∧ t.pos = .none ∧
      ((t.events = s.events ++ [.done (BitVec.ofNat 16 s.size) none] ∧ t.statTx = s.statTx + 1 ∧ t.irqEn = true ∧
          t.txFault = s.txFault ∧ t.state = RadioState.transmitting.code) ∨
        (t.events = s.events ++ [.done errTxFail none] ∧ t.statTx = s.statTx ∧ t.irqEn = s.irqEn ∧
          t.txFault = true ∧ t.retry = true ∧ t.state = s.state)) ∧
      t.txBuf = s.txBuf ∧ t.txLen = s.txLen ∧ t.rxBuf = s.rxBuf ∧ t.hostOut = s.hostOut ∧ t.hostIn = s.hostIn ∧
      t.statRx = s.statRx ∧ t.statCrcFail = s.statCrcFail ∧ t.statRxWhileTx = s.statRxWhileTx ∧ t.sched = [] := by
  rw [sendT3_quiet hq]
  split
  · rw [sendT5_quiet (by simpa using hq)]
    refine ⟨_, rfl, rfl, ?_⟩
    simp [State.size, hq]
  · rw [sendT4_quiet (by simpa using hq)]
    split
    · rw [sendT5_quiet (by simpa [rewritten] using hq)]
      refine ⟨_, rfl, rfl, ?_⟩
      simp [State.size, rewritten, hq]
    · rw [sendT6_quiet]
      refine ⟨_, rfl, rfl, ?_⟩
      simp [rewritten, hq]

/-- RECEIVE's copy loop with no move pending: the rest of the count is copied from `rx_buf` as it is. -/
theorem receiveV2_quiet {n : Nat} {s : State} (hq : s.sched = []) :
    receiveV2 n s = .next { s with
      pos := .none
      hostOut := s.hostOut.writeBytes s.copyIdx (s.rxBuf.readBytes s.copyIdx n)
      copyIdx := s.copyIdx + n
      events := s.events ++
        [.done (BitVec.ofNat 16 s.copyN.toNat) (some { rssi := s.copyRssi, lqi := s.copyLqi })] } := by
  induction n generalizing s with
  | zero =>
    rw [receiveV2, goto_quiet hq]
    rfl
  | succ n ih =>
    rw [receiveV2, goto_quiet hq, ih (by exact hq)]
    simp [copyByte, Memory.readBytes, Memory.writeBytes]
    omega

end Sys2Proof.Machine
end

