-- ==== Sys2Proof/Tests/Slice0.lean ====
section
/-! SUPPORT. The model's own tests: expected results are the vectors of spec/95_test_vectors.md (V-…), or
words written out from spec/30_encoding.md; and one witness for the hypotheses of each obligation. -/

namespace Sys2Proof.Tests

open Sys2Proof Sys2Proof.Machine

/-! ### Helpers: small states under the test configuration TC -/

/-- The next state of an outcome. -/
def after (o : Outcome) : Option State :=
  match o with
  | .next t => some t
  | .fault _ => none
  | .refused _ => none

/-- TXBYTES's scripted answers. -/
def tx (vs : List Byte) : List Answer := vs.map (Answer.mk Params.testConfig.regTxBytes)

/-- A reception's scripted answers. -/
def rx (n status rssi lqi : Byte) (b : List Byte) : List Answer :=
  [⟨Params.testConfig.regRxBytes, n⟩, ⟨Params.testConfig.regRxStatus, status⟩, ⟨Params.testConfig.regRssi, rssi⟩,
    ⟨Params.testConfig.regLqi, lqi⟩] ++ b.map (Answer.mk Params.testConfig.regRxFifo)

/-- A state under TC: a radio state, unmasked, with the given answers of the transceiver. -/
def inState (r : RadioState) (answers : List Answer) : State :=
  { State.initial Params.testConfig false with
    state := r.code
    irqEn := true
    answers := answers }

/-- The same with a dispatch pending at a level. -/
def pending (r : RadioState) (level : Bool) (answers : List Answer) : State :=
  { inState r answers with irqPend := true, evtPin := level, pinPrev := level }

/-- Idle, at node address a. -/
def idleAt (a : Byte) (answers : List Answer) : State := { inState .idle answers with nodeAddr := a }

/-- A buffered frame, as after V-R3. -/
def withFrame : State :=
  { inState .receiving [] with
    rxLen := 6
    rxRssi := 0xC4
    rxLqi := 0x2D
    rxBuf := Memory.ofBytes [0x05, 0x02, 0x07, 0x00, 0x11, 0x22] }

/-- The Done results of a state's event trace. -/
def results (s : State) : List Result :=
  s.events.filterMap fun e =>
    match e with
    | .done r _ => some r
    | .frameAvailable => none
    | .log _ => none

/-- Run one instruction and look at the next state. -/
def look {α : Type} (i : Instr) (s : State) (f : State → α) : Option α := (after (exec i s)).map f

/-- An outcome's stop. -/
def faultOf (o : Outcome) : Option Fault :=
  match o with
  | .next _ => none
  | .fault r => some r
  | .refused _ => none

/-- An outcome's refusal. -/
def refusalOf (o : Outcome) : Option Refusal :=
  match o with
  | .next _ => none
  | .fault _ => none
  | .refused r => some r

/-! ### Well-formedness: one ill-formed term for each check -/

theorem test_wf_send_count : (Instr.send [0x03, 0x05, 0x00]).wf = false := by decide
theorem test_wf_send_empty : (Instr.send []).wf = false := by decide
theorem test_wf_set_too_long : (Instr.setOpt9 (List.replicate 256 0)).wf = false := by
  simp only [Instr.wf, countedWf, List.length_replicate]
  decide
theorem test_wf_brd_too_long : (Instr.recBrd 0xE1 (List.replicate 256 0)).wf = false := by
  simp only [Instr.wf, countedWf, List.length_replicate]
  decide
theorem test_wf_bwr_too_long : (Instr.recBwr 0xE0 (List.replicate 256 0)).wf = false := by
  simp only [Instr.wf, countedWf, List.length_replicate]
  decide

/-! ### Decoding: a word for every constructor, written from 30_encoding.md R78 to R90 -/

theorem test_decode_operations :
    decodeCmd [0x10] = .ok (.init, []) ∧
    decodeCmd [0x20, 0x03, 0x09, 0x00, 0x20] = .ok (.send [0x03, 0x09, 0x00, 0x20], []) ∧
    decodeCmd [0x30, 0xFF] = .ok (.receive 0xFF, []) := by
  refine ⟨rfl, rfl, rfl⟩

theorem test_decode_get :
    decodeCmd [0x40, 1] = .ok (.getDeviceType 1, []) ∧ decodeCmd [0x41, 2] = .ok (.getProto 2, []) ∧
    decodeCmd [0x42, 3] = .ok (.getChannel 3, []) ∧ decodeCmd [0x43, 4] = .ok (.getAddress 4, []) ∧
    decodeCmd [0x44, 5] = .ok (.getMaxFrame 5, []) ∧ decodeCmd [0x45, 8] = .ok (.getIid 8, []) := by
  refine ⟨rfl, rfl, rfl, rfl, rfl, rfl⟩

theorem test_decode_get_reserved :
    decodeCmd [0x46, 8] = .ok (.getOpt6 8, []) ∧ decodeCmd [0x47, 8] = .ok (.getOpt7 8, []) ∧
    decodeCmd [0x48, 8] = .ok (.getOpt8 8, []) ∧ decodeCmd [0x49, 8] = .ok (.getOpt9 8, []) ∧
    decodeCmd [0x4A, 8] = .ok (.getOptA 8, []) ∧ decodeCmd [0x4B, 8] = .ok (.getOptB 8, []) ∧
    decodeCmd [0x4C, 8] = .ok (.getOptC 8, []) ∧ decodeCmd [0x4D, 8] = .ok (.getOptD 8, []) ∧
    decodeCmd [0x4E, 8] = .ok (.getOptE 8, []) ∧ decodeCmd [0x4F, 0] = .ok (.getOptF 0, []) := by
  refine ⟨rfl, rfl, rfl, rfl, rfl, rfl, rfl, rfl, rfl, rfl⟩

theorem test_decode_set :
    decodeCmd [0x50, 2, 1, 2] = .ok (.setDeviceType [1, 2], []) ∧ decodeCmd [0x51, 0] = .ok (.setProto [], []) ∧
    decodeCmd [0x52, 1, 0xC8] = .ok (.setChannel [0xC8], []) ∧
    decodeCmd [0x53, 1, 7, 9] = .ok (.setAddress [7], [9]) ∧
    decodeCmd [0x54, 2, 0xFF, 0] = .ok (.setMaxFrame [0xFF, 0], []) ∧ decodeCmd [0x55, 0] = .ok (.setIid [], []) := by
  refine ⟨rfl, rfl, rfl, rfl, rfl, rfl⟩

theorem test_decode_set_reserved :
    decodeCmd [0x56, 0] = .ok (.setOpt6 [], []) ∧ decodeCmd [0x57, 1, 1] = .ok (.setOpt7 [1], []) ∧
    decodeCmd [0x58, 0] = .ok (.setOpt8 [], []) ∧ decodeCmd [0x59, 0] = .ok (.setOpt9 [], []) ∧
    decodeCmd [0x5A, 0] = .ok (.setOptA [], []) ∧ decodeCmd [0x5B, 0] = .ok (.setOptB [], []) ∧
    decodeCmd [0x5C, 0] = .ok (.setOptC [], []) ∧ decodeCmd [0x5D, 0] = .ok (.setOptD [], []) ∧
    decodeCmd [0x5E, 0] = .ok (.setOptE [], []) ∧ decodeCmd [0x5F, 0] = .ok (.setOptF [], []) := by
  refine ⟨rfl, rfl, rfl, rfl, rfl, rfl, rfl, rfl, rfl, rfl⟩

theorem test_decode_illegal :
    decodeCmd [0x0B] = .ok (.illegalOpc0 0xB, []) ∧
    decodeCmd [0x11] = .ok (.illegalInit1, []) ∧ decodeCmd [0x13] = .ok (.illegalInit2 1, []) ∧
    decodeCmd [0x16] = .ok (.illegalInit4 2, []) ∧ decodeCmd [0x1D] = .ok (.illegalInit8 5, []) ∧
    decodeCmd [0x21, 3] = .ok (.illegalSend1, [3]) ∧ decodeCmd [0x22] = .ok (.illegalSend2 0, []) ∧
    decodeCmd [0x27] = .ok (.illegalSend4 3, []) ∧ decodeCmd [0x28] = .ok (.illegalSend8 0, []) ∧
    decodeCmd [0x31] = .ok (.illegalReceive1, []) ∧ decodeCmd [0x33] = .ok (.illegalReceive2 1, []) ∧
    decodeCmd [0x35] = .ok (.illegalReceive4 1, []) ∧ decodeCmd [0x3F] = .ok (.illegalReceive8 7, []) ∧
    decodeCmd [0x71] = .ok (.illegalOpc6 0x11, []) ∧ decodeCmd [0x60] = .ok (.illegalOpc6 0, []) ∧
    decodeCmd [0xFF] = .ok (.illegalOpc8 0x7F, []) := by
  refine ⟨rfl, rfl, rfl, rfl, rfl, rfl, rfl, rfl, rfl, rfl, rfl, rfl, rfl, rfl, rfl, rfl⟩

theorem test_decode_keys :
    decodeKey 0x3 = .dispatchUnhandled 3 ∧ decodeKey 0x4 = .dispatchRxRearm ∧ decodeKey 0x5 = .dispatchRxStart ∧
    decodeKey 0x6 = .dispatchRxComplete ∧ decodeKey 0x7 = .dispatchMissedEdge ∧ decodeKey 0x8 = .dispatchTxDone ∧
    decodeKey 0x9 = .dispatchTxBusy ∧ decodeKey 0xB = .dispatchUnhandledPowerDown 1 ∧
    decodeKey 0xC = .dispatchInvalid 0 ∧ decodeKeyByte [0x10] = .error .notAKey := by
  refine ⟨rfl, rfl, rfl, rfl, rfl, rfl, rfl, rfl, rfl, rfl⟩

/-- The records of table V-B, and the reserved kinds. -/
theorem test_decode_records :
    decodeRecord [0x00, 0xE2, 0x0E] = .ok (.recRd 0xE2 0x0E, []) ∧
    decodeRecord [0x20, 0xE7, 0x04] = .ok (.recWr 0xE7 0x04, []) ∧
    decodeRecord [0x40, 0xE1, 0x02, 0x11, 0x22] = .ok (.recBrd 0xE1 [0x11, 0x22], []) ∧
    decodeRecord [0x60, 0xE0, 0x04, 0x03, 0x05, 0x01, 0x00] = .ok (.recBwr 0xE0 [0x03, 0x05, 0x01, 0x00], []) ∧
    decodeRecord [0x80, 0x53] = .ok (.recSt 0x53, []) ∧
    decodeRecord [0xA0] = .ok (.recReserved5, []) ∧ decodeRecord [0xE0] = .ok (.recReserved6 1, []) ∧
    decodeRecord [0x81, 0x53] = .error .badHeader := by
  refine ⟨rfl, rfl, rfl, rfl, rfl, rfl, rfl, rfl⟩

/-- A command that is not yet whole waits (R80). -/
theorem test_decode_incomplete :
    decodeCmd [] = .error .incomplete ∧ decodeCmd [0x20, 0x03, 0x09] = .error .incomplete ∧
    decodeCmd [0x52, 0x02, 0x04] = .error .incomplete ∧ decodeCmd [0x30] = .error .incomplete := by
  refine ⟨rfl, rfl, rfl, rfl⟩

theorem test_table_word_command : decodeTableWord 8 0x10 = some .init := by decide
theorem test_table_word_operands : decodeTableWord 24 0xC80152 = some (.setChannel [0xC8]) := by decide
theorem test_table_word_key : decodeTableWord 4 0x6 = some .dispatchRxComplete := by decide

/-! ### The framer: V-F -/

theorem test_frame_enc_vectors :
    frameEnc 5 2 0 [0xA0, 0xA1] = some [0x05, 0x05, 0x02, 0x00, 0xA0, 0xA1] ∧
    frameEnc 0 9 0x80 [] = some [0x03, 0x00, 0x09, 0x80] := by decide

theorem test_frame_enc_refuses : frameEnc 1 2 3 (List.replicate 252 0) = none := by
  simp only [frameEnc, List.length_replicate]
  decide

theorem test_frame_dec_vectors :
    frameDec [] = .empty ∧ frameDec [0xFF, 1, 2, 3] = .oversize ∧ frameDec [0x02, 1, 2] = .shortHeader 2 ∧
    frameDec [0x05, 1, 2, 3] = .truncated 5 4 ∧
    frameDec [0x03, 1, 2, 3] = .ok { address := 1, phySrc := 2, flags := 3, data := [] } ∧
    frameDec [0x03, 1, 2, 3, 0xAA] = .trailing { address := 1, phySrc := 2, flags := 3, data := [] } [0xAA] ∧
    frameDec [0x04, 0xFF, 7, 0x10, 0x55] = .ok { address := 0xFF, phySrc := 7, flags := 0x10, data := [0x55] } := by
  decide

theorem test_frame_size_no_wrap : frameSize [0xFF] = 256 ∧ frameSize [0xFE] = 255 ∧ frameSize [0x00] = 1 := by decide

theorem test_metadata_vectors :
    lqiSplit 0xAD = (true, 0x2D) ∧ lqiSplit 0x80 = (true, 0) ∧ lqiSplit 0x7F = (false, 0x7F) ∧
    rssiVal 0xC4 = -60 ∧ rssiVal 0x7F = 127 ∧ rssiVal 0x80 = -128 := by decide

/-! ### SEND: V-S -/

/-- V-S3: two mismatches. -/
theorem test_send_fails_twice :
    look (.send [0x03, 0x09, 0x00, 0x20]) (idleAt 1 (tx [0, 3]))
      (fun t => (results t, t.state, t.busTrace)) =
    some ([-3], 4, [.st 0x51, .st 0x52, .bwr 0xE0 [0x03, 0x09, 0x01, 0x20], .rd 0xE2 0,
      .st 0x52, .bwr 0xE0 [0x03, 0x09, 0x01, 0x20], .rd 0xE2 3]) := by decide

theorem test_send_failure_locks :
    look (.send [0x03, 0x09, 0x00, 0x20]) (idleAt 1 (tx [0, 3])) (fun t => (t.irqEn, t.txFault, t.statTx)) =
    some (false, true, 0) := by decide

/-- V-S7: a frame of one byte; the stamp is not on the wire. -/
theorem test_send_short_frame :
    look (.send [0x00]) (idleAt 1 (tx [1])) (fun t => (results t, t.busTrace, t.txBuf.read 2)) =
    some ([1], [.st 0x51, .st 0x52, .bwr 0xE0 [0x00], .rd 0xE2 1, .st 0x53], 1) := by decide

/-! ### INIT: V-I -/

/-- V-I3: INIT recovers from the double failure. -/
theorem test_init_recovers :
    look .init { inState .transmitting [] with irqEn := false, txFault := true, channel := 4, statTx := 7 }
      (fun t => (t.state, t.irqEn, t.txFault, t.busTrace)) =
    some (1, true, false, [.st 0x51, .wr 0xE7 4]) := by decide

/-- V-I2: INIT_ARMS_RX. -/
theorem test_init_arms :
    look .init (State.initial { Params.testConfig with initArmsRx := true } false)
      (fun t => (t.state, t.irqEn, t.busTrace)) =
    some (2, true, [.st 0x51, .wr 0xE7 0, .st 0x54]) := by decide

/-! ### RECEIVE: V-V -/

theorem test_receive_copies :
    look (.receive 6) withFrame (fun t => (t.events, t.hostOut.readBytes 0 6)) =
    some ([.done 6 (some { rssi := 0xC4, lqi := 0x2D })], [0x05, 0x02, 0x07, 0x00, 0x11, 0x22]) := by decide

theorem test_receive_no_space :
    look (.receive 5) withFrame (fun t => (results t, t.hostOut)) = some ([-4], []) := by decide

/-! ### GET: V-G, at node address 7 and channel 4 -/

/-- The state of V-G. -/
def getState : State := { inState .idle [] with nodeAddr := 7, channel := 4 }

theorem test_get_device_type :
    look (.getDeviceType 2) getState (fun t => (results t, t.hostOut.readBytes 0 2)) = some ([2], [0x02, 0x01]) := by decide
theorem test_get_proto :
    look (.getProto 2) getState (fun t => (results t, t.hostOut.readBytes 0 2)) = some ([2], [0x04, 0x03]) := by decide
theorem test_get_channel :
    look (.getChannel 1) getState (fun t => (results t, t.hostOut.readBytes 0 1)) = some ([1], [0x04]) := by decide
theorem test_get_address :
    look (.getAddress 1) getState (fun t => (results t, t.hostOut.readBytes 0 1)) = some ([1], [0x07]) := by decide
theorem test_get_max_frame :
    look (.getMaxFrame 2) getState (fun t => (results t, t.hostOut.readBytes 0 2)) = some ([2], [0xFF, 0x00]) := by decide
theorem test_get_iid :
    look (.getIid 8) getState (fun t => (results t, t.hostOut.readBytes 0 8)) =
      some ([8], [0x00, 0x00, 0x00, 0xFF, 0xFE, 0x00, 0x00, 0x07]) := by decide
theorem test_get_iid_no_space : look (.getIid 7) getState (fun t => (results t, t.hostOut)) = some ([-4], []) := by decide
/-- V-G11: the reserved check comes before the space check. -/
theorem test_get_reserved : look (.getOptF 0) getState (fun t => (results t, t.hostOut)) = some ([-6], []) := by decide

/-! ### SET: V-T -/

theorem test_set_channel :
    look (.setChannel [4, 0x63]) (inState .idle []) (fun t => (results t, t.channel, t.busTrace)) =
      some ([0], 4, [.wr 0xE7 4]) := by decide
theorem test_set_channel_out_of_range :
    look (.setChannel [0x0A]) (inState .idle []) (fun t => (results t, t.channel, t.busTrace)) = some ([-5], 0, []) := by decide
theorem test_set_address :
    look (.setAddress [0xFF]) (inState .idle []) (fun t => (results t, t.nodeAddr, t.busTrace)) = some ([0], 0xFF, []) := by decide
theorem test_set_address_broadcast :
    look (.setAddress [0]) (inState .idle []) (fun t => (results t, t.nodeAddr)) = some ([-5], 1) := by decide
/-- V-T12: the read-only check comes before the length check. -/
theorem test_set_iid : look (.setIid []) (inState .idle []) results = some [-6] := by decide
theorem test_set_reserved : look (.setOpt7 [1]) (inState .idle []) results = some [-6] := by decide

/-! ### Illegal commands: V-X -/

theorem test_illegal :
    look (.illegalOpc8 0x7F) (inState .idle []) results = some [-7] ∧
    look .illegalInit1 (inState .idle []) results = some [-7] := by decide
theorem test_busy_port_refuses :
    refusalOf (exec .init { inState .idle [] with pos := .send .s2 }) = some .portBusy ∧
    refusalOf (step { inState .idle [] with pos := .send .s2, sched := [.present [0x10]] }) = some .portBusy := by decide

/-! ### Dispatches: V-D and V-R -/

theorem test_dispatch_rx_start :
    look .dispatchRxStart (pending .receiving true []) (fun t => (t.state, t.irqPend, t.busTrace)) = some (3, false, []) := by decide
theorem test_dispatch_rx_rearm :
    look .dispatchRxRearm (pending .receiving false []) (fun t => (t.state, t.busTrace)) = some (2, [.st 0x54]) := by decide
theorem test_dispatch_missed_edge :
    look .dispatchMissedEdge (pending .receivingBusy true []) (fun t => (t.state, t.events)) =
      some (3, [.log .missedEdge]) := by decide
theorem test_dispatch_tx_done :
    look .dispatchTxDone (pending .transmitting false []) (fun t => (t.state, t.busTrace)) = some (2, [.st 0x54]) := by decide
theorem test_dispatch_tx_busy :
    look .dispatchTxBusy (pending .transmitting true []) (fun t => (t.state, t.busTrace, t.events)) = some (4, [], []) := by decide
theorem test_dispatch_unhandled :
    look (.dispatchUnhandled 2) (pending .idle false []) (fun t => (t.state, t.events)) = some (1, [.log .unhandled]) := by decide
theorem test_dispatch_power_down :
    look (.dispatchUnhandledPowerDown 1) (pending .powerDown true []) (fun t => (t.state, t.events)) =
      some (5, [.log .unhandled]) := by decide
theorem test_dispatch_invalid :
    faultOf (exec (.dispatchInvalid 1) { pending .idle true [] with state := 6 }) = some .invalidState := by decide
/-- I1: SEND's poll does not count a reserved code as a busy radio. -/
theorem test_reserved_state_stops_poll :
    faultOf (step { inState .idle [] with state := 7, pos := .send .s1check }) = some .invalidState ∧
    faultOf (exec (.send [0x00]) { inState .idle [] with state := 6 }) = some .invalidState := by decide
/-- R136: with no command to run, a pending dispatch is taken. -/
theorem test_waiting_task_lets_dispatch_run :
    (after (step (pending .receiving true []))).map (fun t => (t.state, t.irqPend)) = some (3, false) := by decide
/-- V-R3. -/
theorem test_dispatch_delivers :
    look .dispatchRxComplete
      (pending .receivingBusy false (rx 6 0xC1 0xC4 0xAD [0x05, 0x02, 0x07, 0x00, 0x11, 0x22]))
      (fun t => (t.rxLen, t.rxRssi, t.rxLqi, t.rxBuf.readBytes 0 6)) =
    some (6, 0xC4, 0x2D, [0x05, 0x02, 0x07, 0x00, 0x11, 0x22]) := by decide
/-- V-R2. -/
theorem test_dispatch_rejects :
    look .dispatchRxComplete (pending .receivingBusy false (rx 6 0xC1 0x10 0x3F []))
      (fun t => (t.state, t.statCrcFail, t.rxLen, t.busTrace, t.events)) =
    some (2, 1, 0, [.rd 0xE3 6, .rd 0xE4 0xC1, .rd 0xE5 0x10, .rd 0xE6 0x3F, .st 0x54], [.log .rxRejected]) := by decide

/-! ### The edge detector: V-E -/

theorem test_edge_masked_lost :
    (pinChange true { inState .idle [] with irqEn := false }).irqPend = false ∧
    (pinChange true { inState .idle [] with irqEn := false }).pinPrev = true := by decide
theorem test_edge_masked_latched :
    (pinChange true { inState .idle [] with
      irqEn := false, params := { Params.testConfig with latchWhileMasked := true } }).irqPend = true := by decide

/-! ### Bus records: V-B -/

theorem test_records :
    look (.recRd 0xE2 14) (inState .idle []) State.busTrace = some [.rd 0xE2 14] ∧
    look (.recWr 0xE7 4) (inState .idle []) State.busTrace = some [.wr 0xE7 4] ∧
    look (.recBrd 0xE1 [0x11]) (inState .idle []) State.busTrace = some [.brd 0xE1 [0x11]] ∧
    look (.recBwr 0xE0 [0x03]) (inState .idle []) State.busTrace = some [.bwr 0xE0 [0x03]] ∧
    look (.recSt 0x53) (inState .idle []) State.busTrace = some [.st 0x53] := by decide
theorem test_reserved_records :
    refusalOf (exec .recReserved5 State.reset) = some .reservedRecord ∧
    refusalOf (exec (.recReserved6 1) State.reset) = some .reservedRecord := ⟨rfl, rfl⟩

/-! ### The syntax: R92, R93 -/

theorem test_parse_sendto :
    parseLine "SENDTO 5, 0x00, 0xA0 ; hi".toList = some (.sendTo 5 0 [0xA0]) := by decide
theorem test_assemble_sendto :
    assemble (.sendTo 5 0 [0xA0, 0xA1]) = some [0x20, 0x05, 0x05, 0x00, 0x00, 0xA0, 0xA1] ∧
    assemble (.send [0x03, 0x05]) = none := by decide

/-- P2's and P4's `@XCVR` lines. -/
theorem test_parse_xcvr :
    parseLine "@XCVR   RXBYTES = 2, RXSTATUS = CLEAN, LQI = 0xAD, RXFIFO = 05 A1".toList =
      some (.xcvr [(.rxBytes, .byte 2), (.rxStatus, .clean), (.lqi, .byte 0xAD), (.rxFifo, .byte 0x05),
        (.rxFifo, .byte 0xA1)]) ∧
    parseLine "@XCVR TXBYTES = 0, 3".toList = some (.xcvr [(.txBytes, .byte 0), (.txBytes, .byte 3)]) ∧
    parseLine "@XCVR RXSTATUS = BAD".toList = some (.xcvr [(.rxStatus, .bad)]) := by decide
/-- R94: an answer goes to the next read of its own register. -/
theorem test_answers_by_register :
    (busRead 0xE5 (inState .idle [⟨0xE6, 1⟩, ⟨0xE5, 2⟩, ⟨0xE5, 3⟩])).1 = 2 ∧
    (busRead 0xE5 (inState .idle [⟨0xE6, 1⟩, ⟨0xE5, 2⟩, ⟨0xE5, 3⟩])).2.answers = [⟨0xE6, 1⟩, ⟨0xE5, 3⟩] := by decide

/-! ### Witnesses: for each obligation with hypotheses, inputs that meet them all -/

/-- The longest payload, and one byte more. -/
theorem witness_frame_lengths :
    (List.replicate 251 (0 : Byte)).length ≤ maxData ∧ 251 < (List.replicate 252 (0 : Byte)).length := by
  simp only [List.length_replicate]
  decide
/-- A well-formed frame. -/
theorem witness_frame_wf : frameWf [0x03, 0x01, 0x02, 0x03] := by decide
/-- R102's clauses at the bounds of the length byte. -/
theorem witness_frame_verdicts :
    (0xFF : Byte).toNat = 255 ∧ (0x02 : Byte).toNat < 3 ∧ 3 ≤ (0x03 : Byte).toNat ∧ (0xFE : Byte).toNat < 255 ∧
    ([1, 2] : List Byte).length < (0x03 : Byte).toNat ∧ ([] : List Byte).length + 3 = (0x03 : Byte).toNat := by decide
theorem witness_DecodeEncodeRoundTrip : (Instr.send [0x03, 0x05, 0x00, 0x00]).wf = true := by decide
theorem witness_EncodeDecodeRoundTrip : decode .record [0x80, 0x53] = .ok (.recSt 0x53, []) := rfl
theorem witness_CommandDecoderOnlyWaits :
    decodeCmd [0x30] = .error .incomplete ∧ 257 ≤ (List.replicate 257 (0xFF : Byte)).length := ⟨rfl, by simp only [List.length_replicate]; decide⟩
theorem witness_CommandLengths :
    frameOperandWf [0x00] = true ∧ (Instr.illegalOpc8 0).illegal = true ∧
    ((0xFF : Byte) :: List.replicate 255 0).headD 0 = 255 ∧ ((0xFF : Byte) :: List.replicate 255 0).length = 256 ∧
    (inState .idle []).Ready ∧ (inState .idle []).Eligible := by
  refine ⟨by decide, by decide, rfl, ?_, by decide, by decide⟩
  simp only [List.length_cons, List.length_replicate]
theorem witness_TraceSerialisationRoundTrip :
    ∀ r ∈ [BusRecord.st 0x51, .bwr 0xE0 [0x03]], (recordRow r).wf = true := by decide

/-- A state whose next move is the given one. -/
def moving (m : Move) (s : State) : State := { s with sched := [m] }

theorem witness_DirectivesDriveTheirAgents :
    (inState .idle []).Legal ∧ (inState .idle []).sched = [] ∧ canDispatch (pending .receiving true []) = true ∧
    (pending .receiving true []).sched = [] ∧
    (∀ a ∈ (inState .idle [⟨0xE6, 1⟩]).answers, a.reg ≠ regId (inState .idle []).params .rssi) ∧
    (0xE6 : Byte) ≠ regId (inState .idle []).params .rssi := by decide
theorem witness_ResetDropsOperation :
    (moving (.reset [1] [2]) { inState .idle [] with pos := .send .t2 }).Legal ∧
    (moving (.reset [1] [2]) { inState .idle [] with pos := .send .t2 }).sched = .reset [1] [2] :: [] := by decide
theorem witness_EdgeDetectorLatches :
    (moving (.pin true) (inState .idle [])).Legal ∧ (moving (.pin true) (inState .idle [])).sched = .pin true :: [] ∧
    (moving (.pin false) (inState .idle [])).pinPrev = (moving (.pin false) (inState .idle [])).evtPin ∧
    false = (moving (.pin false) (inState .idle [])).evtPin := by decide
theorem witness_EdgesCoalesce :
    ({ inState .receiving [] with sched := [.pin true, .pin false] }).Legal ∧ (inState .receiving []).irqEn = true ∧
    ({ inState .receiving [] with sched := [.pin true, .pin false] }).sched = [true, false].map Move.pin ++ [] := by decide
theorem witness_DispatchRowsAct :
    ∀ r : RadioState, (pending r true []).irqEn = true ∧ (pending r true []).irqPend = true ∧
      (pending r true []).state = r.code ∧ (pending r true []).evtPin = true ∧ (pending r false []).evtPin = false := by
  intro r
  cases r <;> decide
theorem witness_ReservedStateFaults :
    6 ≤ ({ pending .idle true [] with state := 6 }).state.toNat ∧ Instr.init.format = .cmd ∧
    Instr.dispatchTxBusy.format = .key ∧ (pending .powerDown true []).Legal ∧
    dispatchReady (pending .powerDown true []) = true := by decide
theorem witness_DispatchRunsRowOfKey :
    (moving (.dispatch true) (pending .idle true [])).sched = .dispatch true :: [] ∧
    (pending .idle true []).pos.isYield = true ∧ (inState .idle []).irqPend = false ∧ (inState .idle []).Legal ∧
    (pending .idle true []).sched = [] ∧ decodeCmd (pending .idle true []).port = .error .incomplete ∧
    (moving .stop (pending .idle true [])).sched = [.stop] ∧ (moving .stop (inState .idle [])).Legal := by
  refine ⟨by decide, by decide, by decide, by decide, by decide, rfl, rfl, by decide⟩
theorem witness_dispatch_steps :
    (moving (.dispatch true) (pending .receiving true [])).IsrTurn ∧ (pending .receiving true []).IsrTurn ∧
    (moving .stop (pending .receiving true [])).IsrTurn ∧
    ∃ t, step (moving (.dispatch true) (pending .receiving true [])) = .next t ∧
      t.state = RadioState.receivingBusy.code :=
  ⟨.inl ⟨true, [], rfl⟩, .inr (.inl ⟨rfl, by decide, by decide⟩), .inr (.inr ⟨rfl, rfl⟩), _, rfl, rfl⟩
theorem witness_DispatchRefusedWhenNotTaken :
    Instr.dispatchRxStart.format = .key ∧ (∀ low, Instr.dispatchRxStart ≠ .dispatchInvalid low) ∧
    (inState .receiving []).Legal ∧ (inState .receiving []).irqPend = false ∧
    encode .dispatchRxStart ≠ [(dispatchKey (pending .receiving false [])).setWidth 8] := by
  refine ⟨rfl, by decide, by decide, rfl, by decide⟩
/-- V-R3's state, at the boundary of the integrity bit. -/
def delivered : State := pending .receivingBusy false (rx 1 0xC1 0x10 0x80 [0x55])

theorem witness_DeliveredReception :
    delivered.irqEn = true ∧ delivered.irqPend = true ∧ delivered.state = RadioState.receivingBusy.code ∧
    delivered.evtPin = false ∧ delivered.rxBuf.wf ∧
    takeAnswer delivered.params.regRxBytes delivered.answers = some (1, delivered.answers.drop 1) ∧
    takeAnswer delivered.params.regRxStatus (delivered.answers.drop 1) =
      some (delivered.params.rxStatusClean, delivered.answers.drop 2) ∧
    takeAnswer delivered.params.regRssi (delivered.answers.drop 2) = some (0x10, delivered.answers.drop 3) ∧
    takeAnswer delivered.params.regLqi (delivered.answers.drop 3) =
      some (0x80, [0x55].map (Answer.mk delivered.params.regRxFifo) ++ []) ∧
    ([0x55] : List Byte).length = (1 : Byte).toNat ∧ 128 ≤ (0x80 : Byte).toNat := by decide

/-- V-R2's state, at the boundary of the integrity bit. -/
def rejected : State := pending .receivingBusy false (rx 6 0xC1 0x10 0x7F [])

/-- V-R1's state. -/
def aborted : State := pending .receivingBusy false (rx 6 0xC0 0x10 0x80 [])

theorem witness_FailedReceptions :
    (rejected.irqEn = true ∧ rejected.irqPend = true ∧ rejected.state = RadioState.receivingBusy.code ∧
      rejected.evtPin = false ∧
      takeAnswer rejected.params.regRxBytes rejected.answers = some (6, rejected.answers.drop 1) ∧
      takeAnswer rejected.params.regRxStatus (rejected.answers.drop 1) =
        some (rejected.params.rxStatusClean, rejected.answers.drop 2) ∧
      takeAnswer rejected.params.regRssi (rejected.answers.drop 2) = some (0x10, rejected.answers.drop 3) ∧
      takeAnswer rejected.params.regLqi (rejected.answers.drop 3) = some (0x7F, []) ∧ (0x7F : Byte).toNat < 128) ∧
    (aborted.irqEn = true ∧ aborted.irqPend = true ∧ aborted.state = RadioState.receivingBusy.code ∧
      aborted.evtPin = false ∧
      takeAnswer aborted.params.regRxBytes aborted.answers = some (6, aborted.answers.drop 1) ∧
      takeAnswer aborted.params.regRxStatus (aborted.answers.drop 1) = some (0xC0, aborted.answers.drop 2) ∧
      (0xC0 : Byte) ≠ aborted.params.rxStatusClean) ∧
    (inState .idle []).state ≠ RadioState.receivingBusy.code := by decide
/-- V-S1, V-S2 and V-S3's starts, with a frame of four bytes. -/
theorem witness_send :
    (idleAt 2 (tx [4])).Ready ∧ (idleAt 2 (tx [4])).Eligible ∧ (idleAt 2 (tx [4])).txBuf.wf ∧
    frameOperandWf [0x03, 0x05, 0x00, 0x00] = true ∧ ([0x03, 0x05, 0x00, 0x00] : List Byte).length ≤ 255 ∧
    takeAnswer (idleAt 2 (tx [4])).params.regTxBytes (idleAt 2 (tx [4])).answers =
      some (u8 ([0x03, 0x05, 0x00, 0x00] : List Byte).length, []) ∧
    (3 : Byte) ≠ u8 ([0x03, 0x05, 0x00, 0x00] : List Byte).length ∧
    takeAnswer (idleAt 2 []).params.regTxBytes (tx [3, 4]) = some (3, tx [4]) ∧
    takeAnswer (idleAt 2 []).params.regTxBytes (tx [0, 3]) = some (0, tx [3]) ∧
    takeAnswer (idleAt 2 []).params.regTxBytes (tx [3]) = some (3, []) := by decide
/-- The longest frame SEND takes, and the first it refuses. -/
theorem witness_send_bounds :
    frameOperandWf (0xFE :: List.replicate 254 0) = true ∧ (0xFE :: List.replicate 254 (0 : Byte)).length ≤ 255 ∧
    frameOperandWf (0xFF :: List.replicate 255 0) = true ∧ (0xFF :: List.replicate 255 (0 : Byte)).headD 0 = 255 := by
  simp only [frameOperandWf, List.length_cons, List.length_replicate, List.headD_cons]
  decide
theorem witness_SendTimesOut : (inState .transmitting []).Ready ∧ ¬ (inState .transmitting []).Eligible := by decide
theorem witness_TxBufHoldsStampedFrame :
    ∃ t, exec (.send [0x00]) (idleAt 1 (tx [1])) = .next t := ⟨_, rfl⟩
/-- A frame begins to arrive while SEND stands at a yield before its mask. -/
def raced (l : SendStep) : State :=
  { pending .receiving true (tx [1]) with pos := .send l, hostIn := [0x00], sched := [.dispatch false, .run] }

theorem witness_SendRaceAbandonsReception :
    (raced .s2).pos = .send .s2 ∧ (raced .s3mask).pos = .send .s3mask ∧
    ∀ l, (raced l).state = RadioState.receiving.code ∧ (raced l).irqEn = true ∧ (raced l).irqPend = true ∧
      (raced l).evtPin = true ∧ (raced l).size ≤ 255 ∧ (raced l).sched = [.dispatch false, .run] := by
  refine ⟨rfl, rfl, fun l => ⟨rfl, rfl, rfl, rfl, ?_, rfl⟩⟩
  show (frameSize [0x00]) ≤ 255
  decide
theorem witness_StaleDispatchAfterCommit :
    (moving (.dispatch false) { pending .transmitting false [] with pos := .send .t5done }).pos = .send .t5done ∧
    (moving (.dispatch false) { pending .transmitting false [] with pos := .send .t5done }).state =
      RadioState.transmitting.code ∧
    (moving (.dispatch false) { pending .transmitting false [] with pos := .send .t5done }).irqEn = true ∧
    (moving (.dispatch false) { pending .transmitting false [] with pos := .send .t5done }).irqPend = true ∧
    (moving (.dispatch false) { pending .transmitting false [] with pos := .send .t5done }).evtPin = false ∧
    (moving (.dispatch false) { pending .transmitting false [] with pos := .send .t5done }).sched = .dispatch false :: [] := by
  decide
theorem witness_OnlyInitOrResetClearsTxFault :
    ∃ t, step (moving (.reset [] []) { inState .idle [] with txFault := true }) = .next t ∧ t.txFault = false := ⟨_, rfl, rfl⟩
/-- RECEIVE at the boundary of the capacity. -/
theorem witness_ReceiveCopiesFrame :
    withFrame.Ready ∧ withFrame.rxLen.toNat ≤ (6 : Byte).toNat ∧ (5 : Byte).toNat < withFrame.rxLen.toNat := by decide

/-- V-V5: byte 0 of four is copied, a delivery is pending. -/
def torn : State :=
  { pending .receivingBusy false (rx 5 0xC1 0x10 0x80 [0x04, 0x0D, 0x0E, 0x0F, 0x10]) with
    pos := .receive .v2
    rxLen := 4
    copyN := 4
    copyIdx := 1
    rxBuf := Memory.ofBytes [0x03, 0x0A, 0x0B, 0x0C]
    hostOut := Memory.ofBytes [0x03]
    sched := [.dispatch false, .run] }

theorem witness_TornReceive :
    torn.pos = .receive .v2 ∧ torn.copyIdx < torn.copyN.toNat ∧ torn.rxBuf.wf ∧ torn.hostOut.wf ∧
    torn.irqEn = true ∧ torn.irqPend = true ∧ torn.state = RadioState.receivingBusy.code ∧ torn.evtPin = false ∧
    takeAnswer torn.params.regRxBytes torn.answers = some (5, torn.answers.drop 1) ∧
    takeAnswer torn.params.regRxStatus (torn.answers.drop 1) = some (torn.params.rxStatusClean, torn.answers.drop 2) ∧
    takeAnswer torn.params.regRssi (torn.answers.drop 2) = some (0x10, torn.answers.drop 3) ∧
    takeAnswer torn.params.regLqi (torn.answers.drop 3) =
      some (0x80, [0x04, 0x0D, 0x0E, 0x0F, 0x10].map (Answer.mk torn.params.regRxFifo) ++ []) ∧
    ([0x04, 0x0D, 0x0E, 0x0F, 0x10] : List Byte).length = (5 : Byte).toNat ∧ 128 ≤ (0x80 : Byte).toNat ∧
    torn.sched = [.dispatch false, .run] := by decide
/-- V-V5's result. -/
theorem test_torn_copy :
    ((after (step torn)).bind fun t => after (step t)).map (fun u => u.hostOut.readBytes 0 4) =
      some [0x03, 0x0D, 0x0E, 0x0F] := by decide
theorem witness_get_set : getState.Ready := by decide
/-- SET CHANNEL at both bounds of the range, and just outside. -/
theorem witness_SetChannelValidates :
    (inState .idle []).Ready ∧ (inState .idle []).params.chanMin ≤ (0 : Byte) ∧ (9 : Byte) ≤ (inState .idle []).params.chanMax ∧
    (inState .idle []).params.chanMax < (10 : Byte) ∧
    (0 : Byte) < { Params.testConfig with chanMin := 1 }.chanMin := by decide
theorem witness_SetAddressValidates : (inState .idle []).Ready ∧ (1 : Byte) ≠ 0 := by decide
theorem witness_IllegalCommands :
    (opcOf 0x0F).toNat = 0 ∧ 6 ≤ (opcOf 0x60).toNat ∧
    (1 ≤ (opcOf 0x31).toNat ∧ (opcOf 0x31).toNat ≤ 3 ∧ (optOf 0x31).toNat ≠ 0) ∧
    Instr.illegalInit1.illegal = true ∧ (inState .idle []).Legal ∧ (inState .idle []).pos = .none := by decide
theorem witness_CommandsRefusedWhileBusy :
    Instr.init.format = .cmd ∧ ({ inState .idle [] with pos := .send .s1 }).Legal ∧
    ({ inState .idle [] with pos := .send .s1 }).pos ≠ .none ∧
    (moving (.present [0x10]) (inState .idle [])).sched = .present [0x10] :: [] ∧
    (moving (.present [0x10]) (inState .idle [])).pos = .none := by decide
/-- A whole command at the port; a command not yet whole; an operation in progress; a move pending. -/
theorem witness_StepRunsDecodedCommand :
    ({ inState .idle [] with port := [0x10] }).pos = .none ∧
    decodeCmd ({ inState .idle [] with port := [0x10] }).port = .ok (.init, []) ∧
    (∃ t, exec .init { inState .idle [] with port := [], sched := [] } = .next t) ∧
    decodeCmd ({ inState .idle [] with port := [0x30] }).port = .error .incomplete ∧
    dispatchReady { inState .idle [] with port := [0x30] } = false ∧
    ({ inState .idle [] with pos := .get 2 }).pos ≠ .none ∧ (moving .task (inState .idle [])).sched = .task :: [] ∧
    (moving .task (inState .idle [])).Legal ∧ (moving .task (inState .idle [])).sched ≠ [] ∧
    (moving .stop { inState .idle [] with pos := .set .c1 }).sched = [.stop] ∧
    (moving .stop { inState .idle [] with pos := .set .c1 }).pos.isYield = false :=
  ⟨rfl, rfl, ⟨_, rfl⟩, rfl, rfl, by decide, rfl, by decide, by decide, rfl, rfl⟩
theorem witness_PresentedWordIsNextInstruction :
    4 < 8 ∧ decodeTableWord 8 0x10 = some .init ∧ decodeTableWord 4 0xC = some (.dispatchInvalid 0) := by decide
theorem witness_TaskStepsRefineWholeCommand :
    ({ inState .idle [] with port := [0x10] }).Legal ∧ ({ inState .idle [] with port := [0x10] }).sched = [] ∧
    ([Move.pin true] : List Move) ≠ [] ∧
    ∃ t, taskStep { inState .idle [] with port := [0x10] } = .next t := ⟨by decide, rfl, by decide, ⟨_, rfl⟩⟩
/-- A machine that waits is a run, left to itself and with nothing added, and it is weakly fair; TASK may stop at a
yield; moves for ever and none of TASK's. For a state that meets the invariant see `witness_MachineInv`. -/
theorem witness_OnlyTheDispatchIsFair :
    (UnattendedRun fun _ => inState .idle []) ∧ (IsRun fun _ => inState .idle []) ∧
    (WeaklyFair fun _ => inState .idle []) ∧
    (moving .stop { pending .receiving true [] with pos := .send .s2 }).Legal ∧
    (moving .stop { pending .receiving true [] with pos := .send .s2 }).sched = [.stop] ∧
    (moving .stop { pending .receiving true [] with pos := .send .s2 }).pos.isYield = true ∧
    (∀ k bytes, (fun _ : Nat => Move.pin true) k ≠ .present bytes) ∧
    ∀ j, (fun _ : Nat => Move.pin true) j ≠ .task ∧ (fun _ : Nat => Move.pin true) j ≠ .run ∧
      ∀ tx rx, (fun _ : Nat => Move.pin true) j ≠ .reset tx rx := by
  refine ⟨fun _ => rfl, fun _ => ⟨_, [], rfl, rfl⟩, fun k => ⟨k, Nat.le_refl k, .inl rfl⟩, by decide, rfl, rfl, ?_, ?_⟩
  · intro _ _ h
    cases h
  · exact fun _ => ⟨Move.noConfusion, Move.noConfusion, fun _ _ => Move.noConfusion⟩
/-- A stopped TASK takes no step at a yield, and ISR takes the dispatch there; inside an atomic block it takes one
label. -/
theorem test_stopped_task :
    (after (step (moving .stop { pending .receiving true [] with pos := .send .s2 }))).map
      (fun t => (t.pos, t.state, t.sched)) = some (.send .s2, RadioState.receivingBusy.code, [.stop]) ∧
    (after (step (moving .stop { inState .receiving [] with pos := .send .s3 }))).map
      (fun t => (t.pos, t.sched)) = some (.send .s3mask, [.stop]) := by decide
/-- A parameter set that keeps R7's constraints. -/
theorem witness_params : Params.testConfig.wf := by decide

/-- A state of the masked region that keeps the invariant's clauses: SEND at T2, its frame loaded. -/
def masked : State :=
  { idleAt 1 [] with
    pos := .send .t2
    state := RadioState.transmitting.code
    irqEn := false
    hostIn := [0x00]
    txLen := 1 }

theorem witness_MachineInv : MachineInv masked where
  paramsWf := by decide
  legal := by decide
  addrLegal := by decide
  channelLow := by decide
  channelHigh := by decide
  rxWhileTxZero := rfl
  txBufWf := by decide
  txBufIn := by decide
  rxBufWf := by decide
  rxBufIn := by decide
  hostOutWf := by decide
  hostOutIn := by decide
  pollBound := by decide
  sleepBound := by decide
  sendMask := by decide
  initMask := by decide
  raceStates := by decide
  sizeOk := by decide
  txLenOk := by decide
  copyBound := by decide
  channelChecked := by decide
  addressChecked := by decide
  channelLatched := by decide
  pinSeen := rfl
  unknownMasked := by decide
  initLeft := by decide
  faultLock := by decide
  faultFree := by decide
theorem witness_StepNeverStops : ∀ bytes rest, masked.sched = .present bytes :: rest → masked.pos = .none := by
  intro bytes rest h
  cases h
theorem witness_masked_steps : ∃ t, step masked = .next t := by
  obtain ⟨t, h, _⟩ := sendT3_outcomes { burstTx masked with pos := .send .t3 } rfl
  exact ⟨t, h⟩
theorem witness_exec_next : ∃ t, exec (.setChannel [4]) (inState .idle []) = .next t := ⟨_, rfl⟩
theorem witness_MemoryWritesStayInside :
    (inState .idle []).Ready ∧ (inState .idle []).hostOut.wf ∧ (inState .idle []).rxBuf.wf ∧
    (∃ t, exec (getRow 2 1) (inState .idle []) = .next t) ∧
    optionValue 2 (inState .idle []) = some [0] ∧ ([0] : List Byte).length ≤ (1 : Byte).toNat ∧
    optionValue 6 (inState .idle []) = none ∧ (0 : Byte).toNat < ([0] : List Byte).length ∧
    (∃ t, exec (.receive 0) (inState .idle []) = .next t) ∧
    ∃ t, exec .dispatchRxComplete (pending .receivingBusy false (rx 0 0xC1 0 0x80 [])) = .next t := by
  refine ⟨by decide, by decide, by decide, ⟨_, rfl⟩, by decide, by decide, by decide, by decide, ⟨_, rfl⟩, ⟨_, rfl⟩⟩
theorem witness_InstancesIndependent :
    ∃ ms, stepNode [{ transport := 0, ctx := inState .idle [] }, { transport := 1, ctx := inState .idle [] }] 1 = some ms :=
  ⟨_, rfl⟩

end Sys2Proof.Tests
end

section
/-! TASK's labelled step as a function, and the law that ties it to the model: an operation goes on by one
labelled step, and then, with no move pending, by its further steps (10_state.md R38; log 2). -/

namespace Sys2Proof.Machine

/-! ### The labelled step -/

/-- What `return r` leaves (R38). -/
def finished (r : Result) (s : State) : State := { s with pos := .none, events := s.events ++ [.done r none] }

/-- INIT's labelled steps (44_adapter.md R166). -/
def advanceInit (s : State) : InitStep → State
  | .i1 => { clearPending (irqDisable s) with pos := .init .i2 }
  | .i2 => { clearTxFault s with pos := .init .i3 }
  | .i3 => { strobe s.params.strobeIdle s with pos := .init .i4 }
  | .i4 => { busWrite s.params.regChannel s.channel s with pos := .init .i5 }
  | .i5 => { setRadio .idle s with pos := .init .i6 }
  | .i6 => { armReceive s with pos := .init .i7 }
  | .i7 => { irqEnable s with pos := .init .i7done }
  | .i7done => finished 0 s

/-- The read-back of T3 and T4: to T5 where it agrees with `tx_len`, otherwise to the given label. -/
def readBack (otherwise : SendStep) (s : State) : State :=
  let c := busRead s.params.regTxBytes s
  { c.2 with pos := .send (if c.1 = c.2.txLen then .t5 else otherwise) }

/-- SEND's labelled steps (41_send_tx.md R113 to R124); none for the MemWrite past TXBUF's end (20_memory.md
R47). -/
def advanceSend (s : State) : SendStep → Option State
  | .s1 => some { startPoll s with pos := .send .s1check }
  | .s1check => some (
      if eligible s then { s with pos := .send .s2 }
      else if s.pollK < pollMax then { s with pos := .send .s1sleep }
      else finished errTimeout s)
  | .s1sleep => some { countSleep s with pos := .send .s1check }
  | .s2 => some (if maxFrame < s.size then finished errSize s else { s with pos := .send .s3 })
  | .s3 => some { s with stamp := s.nodeAddr, pos := .send .s3mask }
  | .s3mask => some { setRadio .transmitting (irqDisable s) with pos := .send .s4 }
  | .s4 => some { strobe s.params.strobeFlushTx (strobe s.params.strobeIdle s) with pos := .send .s5 }
  | .s5 => if maxFrame < s.size then none else some { fillTxBuf s with pos := .send .t1 }
  | .t1 => some { irqDisable s with retry := false, pos := .send .t2 }
  | .t2 => some { burstTx s with pos := .send .t3 }
  | .t3 => some (readBack .t4 s)
  | .t4 => some (readBack .t6 (rewritten s))
  | .t5 => some { commitTx s with pos := .send .t5done }
  | .t5done => some (finished (countResult s.size) s)
  | .t6 => some (finished errTxFail (setTxFault s))

/-- Where RECEIVE's copy loop stands: before the next byte, or before V3 (44_adapter.md R167). -/
def copyLabel (s : State) : ReceiveStep := if s.copyIdx < s.copyN.toNat then .v2 else .v3

/-- RECEIVE's labelled steps (R167). -/
def advanceReceive (s : State) : ReceiveStep → State
  | .v1 =>
      if s.maxLen < s.rxLen.toNat then finished errNoSpace (latchFrame s)
      else { latchFrame s with pos := .receive (copyLabel (latchFrame s)) }
  | .v2 => { copyByte s with pos := .receive (copyLabel (copyByte s)) }
  | .v3 => { s with
      pos := .none
      events := s.events ++ [.done (countResult s.copyN.toNat) (some { rssi := s.copyRssi, lqi := s.copyLqi })] }

/-- GET's one labelled step (R169). -/
def advanceGet (s : State) (opt : BitVec 4) : State :=
  match optionValue opt s with
  | none => finished errNotSup s
  | some bytes =>
      if s.maxLen < bytes.length then finished errNoSpace s
      else finished (countResult bytes.length) (writeHostOut 0 bytes s)

/-- SET's labelled steps (R177 to R181). -/
def advanceSet (s : State) : SetStep → State
  | .e1 opt =>
      if opt = optChannel ∨ opt = optAddress then
        if s.hostIn = [] then finished errInval s
        else { s with pos := .set (if opt = optChannel then .c1 else .a1) }
      else finished errNotSup s
  | .c1 => if channelInRange s.setValue s then { s with pos := .set .c2 } else finished errInval s
  | .c2 => { s with channel := s.setValue, pos := .set .c2write }
  | .c2write => finished 0 (busWrite s.params.regChannel s.setValue s)
  | .a1 => if s.setValue = broadcast then finished errInval s else { s with pos := .set .a2 }
  | .a2 => finished 0 { s with nodeAddr := s.setValue }

/-- One labelled step of the operation in progress; none for S5's range fault. -/
def advance (s : State) : Option State :=
  match s.pos with
  | .none => some s
  | .init l => some (advanceInit s l)
  | .send l => advanceSend s l
  | .receive l => some (advanceReceive s l)
  | .get opt => some (advanceGet s opt)
  | .set l => some (advanceSet s l)

theorem advance_none {s : State} (h : s.pos = .none) : advance s = some s := by simp only [advance, h]
theorem advance_init {s : State} {l : InitStep} (h : s.pos = .init l) : advance s = some (advanceInit s l) := by
  simp only [advance, h]
theorem advance_send {s : State} {l : SendStep} (h : s.pos = .send l) : advance s = advanceSend s l := by
  simp only [advance, h]
theorem advance_receive {s : State} {l : ReceiveStep} (h : s.pos = .receive l) :
    advance s = some (advanceReceive s l) := by simp only [advance, h]
theorem advance_get {s : State} {opt : BitVec 4} (h : s.pos = .get opt) : advance s = some (advanceGet s opt) := by
  simp only [advance, h]
theorem advance_set {s : State} {l : SetStep} (h : s.pos = .set l) : advance s = some (advanceSet s l) := by
  simp only [advance, h]

/-! ### The law of the sequencer -/

/-- After a labelled step: with no move pending the operation goes on, otherwise it stands there. -/
def goOn (s : State) : Outcome := if s.sched.isEmpty then resumeOp s else .next s

/-- `goOn` of a labelled step, or its fault. -/
def goOnOr : Option State → Outcome
  | none => .fault .bufferRange
  | some u => goOn u

theorem goOn_quiet {s : State} (h : s.sched = []) : goOn s = resumeOp s := by simp [goOn, h]

theorem goOn_pending {s : State} (h : s.sched ≠ []) : goOn s = .next s := by simp [goOn, h]

theorem resumeOp_none {s : State} (h : s.pos = .none) : resumeOp s = .next s := by simp only [resumeOp, h]

theorem goOn_none {s : State} (h : s.pos = .none) : goOn s = .next s := by
  rw [goOn, resumeOp_none h, ite_self]

/-- Standing before a label whose step is `f` is going on from that label. -/
theorem goto_eq_goOn {p : Pos} {s : State} {f : State → Outcome}
    (h : f { s with pos := p } = resumeOp { s with pos := p }) : goto p s f = goOn { s with pos := p } := by
  rw [goto, goOn, h]

theorem finish_eq_goOn (r : Result) (s : State) : finish r s = goOn (finished r s) :=
  (goOn_none (s := finished r s) rfl).symm

theorem initFrom_eq (l : InitStep) (s : State) : initFrom l s = goOn (advanceInit s l) := by
  cases l with
  | i7done => exact finish_eq_goOn 0 s
  | i1 | i2 | i3 | i4 | i5 | i6 | i7 => exact goto_eq_goOn rfl

/-- S1's check: the sleeps left are those that `poll_k` leaves, at every turn of the loop (R114). -/
theorem sendCheck_eq (s : State) : sendCheck (pollMax - s.pollK) s = goOnOr (advanceSend s .s1check) := by
  by_cases he : eligible s = true
  · unfold sendCheck
    simp only [advanceSend, goOnOr, he, if_true]
    exact goto_eq_goOn rfl
  · cases hn : pollMax - s.pollK with
    | zero =>
      simp only [sendCheck, advanceSend, goOnOr, he, if_neg (show ¬ s.pollK < pollMax by omega)]
      exact finish_eq_goOn _ s
    | succ n =>
      simp only [sendCheck, advanceSend, goOnOr, he, if_pos (show s.pollK < pollMax by omega)]
      have hn' : n = pollMax - (s.pollK + 1) := by omega
      subst hn'
      exact goto_eq_goOn rfl

/-- The burst and read-back of T4, from the state that the flush and the rewrite leave. -/
theorem sendT4_eq (s : State) : sendT4 s = goOn (readBack .t6 (rewritten s)) := by
  have hr : burstTx { strobe s.params.strobeFlushTx s with retry := true } = rewritten s := by
    simp [burstTx, burstWrite, strobe, State.record, rewritten, State.txBytes]
  simp only [sendT4, hr, readBack, show (rewritten s).params = s.params from rfl]
  split <;> exact goto_eq_goOn rfl

theorem sendT3_eq (s : State) : sendT3 s = goOn (readBack .t4 s) := by
  simp only [sendT3, readBack]
  split <;> exact goto_eq_goOn rfl

theorem sendFrom_eq (l : SendStep) (s : State) : sendFrom l s = goOnOr (advanceSend s l) := by
  cases l with
  | s1check => exact sendCheck_eq s
  | s2 =>
    simp only [sendFrom, sendS2, advanceSend, goOnOr]
    split
    · exact finish_eq_goOn _ s
    · exact goto_eq_goOn rfl
  | s5 =>
    simp only [sendFrom, sendS5, advanceSend]
    split
    · rfl
    · exact goto_eq_goOn rfl
  | t3 => exact sendT3_eq s
  | t4 => exact sendT4_eq s
  | t5done => exact finish_eq_goOn _ s
  | t6 => exact finish_eq_goOn _ (setTxFault s)
  | s1 | s1sleep | s3 | s3mask | s4 | t1 | t2 | t5 => exact goto_eq_goOn rfl

/-- RECEIVE's copy loop stands where the bytes still to copy say. -/
theorem receiveV2_eq (s : State) :
    receiveV2 (s.copyN.toNat - s.copyIdx) s = goOn { s with pos := .receive (copyLabel s) } := by
  cases hn : s.copyN.toNat - s.copyIdx with
  | zero =>
    rw [copyLabel, if_neg (by omega), receiveV2]
    exact goto_eq_goOn rfl
  | succ n =>
    rw [copyLabel, if_pos (by omega), receiveV2]
    have hn' : n = s.copyN.toNat - (s.copyIdx + 1) := by omega
    subst hn'
    exact goto_eq_goOn rfl

theorem receiveFrom_eq (l : ReceiveStep) (s : State) : receiveFrom l s = goOn (advanceReceive s l) := by
  cases l with
  | v1 =>
    simp only [receiveFrom, receiveV1, advanceReceive]
    split
    · exact finish_eq_goOn _ (latchFrame s)
    · exact receiveV2_eq (latchFrame s)
  | v2 => exact receiveV2_eq (copyByte s)
  | v3 => exact (goOn_none rfl).symm

theorem getG1_eq (opt : BitVec 4) (s : State) : getG1 opt s = goOn (advanceGet s opt) := by
  cases ho : optionValue opt s with
  | none => simp only [getG1, advanceGet, ho, finish_eq_goOn]
  | some bytes =>
    simp only [getG1, advanceGet, ho]
    split <;> exact finish_eq_goOn _ _

theorem setE1_eq (opt : BitVec 4) (s : State) : setE1 opt s = goOn (advanceSet s (.e1 opt)) := by
  simp only [setE1, advanceSet]
  split
  · split
    · exact finish_eq_goOn _ s
    · split <;> exact goto_eq_goOn rfl
  · exact finish_eq_goOn _ s

theorem setFrom_eq (l : SetStep) (s : State) : setFrom l s = goOn (advanceSet s l) := by
  cases l with
  | e1 opt => exact setE1_eq opt s
  | c1 =>
    simp only [setFrom, setC1, advanceSet]
    split
    · exact goto_eq_goOn rfl
    · exact finish_eq_goOn _ s
  | a1 =>
    simp only [setFrom, setA1, advanceSet]
    split
    · exact finish_eq_goOn _ s
    · exact goto_eq_goOn rfl
  | c2 => exact goto_eq_goOn rfl
  | c2write => exact finish_eq_goOn _ _
  | a2 => exact finish_eq_goOn _ { s with nodeAddr := s.setValue }

/-- The law of the sequencer: an operation in progress takes one labelled step and goes on from there. -/
theorem resumeOp_eq {s : State} (h : s.pos ≠ .none) : resumeOp s = goOnOr (advance s) := by
  cases hp : s.pos with
  | none => exact absurd hp h
  | init l => rw [advance_init hp, resumeOp, hp]; exact initFrom_eq l s
  | send l => rw [advance_send hp, resumeOp, hp]; exact sendFrom_eq l s
  | receive l => rw [advance_receive hp, resumeOp, hp]; exact receiveFrom_eq l s
  | get opt => rw [advance_get hp, resumeOp, hp]; exact getG1_eq opt s
  | set l => rw [advance_set hp, resumeOp, hp]; exact setFrom_eq l s

/-! ### Every operation ends -/

/-- A bound on the labelled steps that an operation still takes. -/
def stepsLeft (s : State) : Nat :=
  match s.pos with
  | .none => 0
  | .init .i1 => 8
  | .init .i2 => 7
  | .init .i3 => 6
  | .init .i4 => 5
  | .init .i5 => 4
  | .init .i6 => 3
  | .init .i7 => 2
  | .init .i7done => 1
  | .send .s1 => 13 + 2 * pollMax
  | .send .s1check => 12 + 2 * (pollMax - s.pollK)
  | .send .s1sleep => 13 + 2 * (pollMax - (s.pollK + 1))
  | .send .s2 => 11
  | .send .s3 => 10
  | .send .s3mask => 9
  | .send .s4 => 8
  | .send .s5 => 7
  | .send .t1 => 6
  | .send .t2 => 5
  | .send .t3 => 4
  | .send .t4 => 3
  | .send .t5 => 2
  | .send .t5done => 1
  | .send .t6 => 1
  | .receive .v1 => 2 + s.rxLen.toNat
  | .receive .v2 => 2 + (s.copyN.toNat - (s.copyIdx + 1))
  | .receive .v3 => 1
  | .get _ => 1
  | .set (.e1 _) => 4
  | .set .c1 => 3
  | .set .c2 => 2
  | .set .c2write => 1
  | .set .a1 => 2
  | .set .a2 => 1

theorem stepsLeft_copyLabel (s : State) :
    stepsLeft { s with pos := .receive (copyLabel s) } ≤ 1 + (s.copyN.toNat - s.copyIdx) := by
  by_cases h : s.copyIdx < s.copyN.toNat
  · simp only [copyLabel, if_pos h, stepsLeft]; omega
  · simp only [copyLabel, if_neg h, stepsLeft]; omega

theorem stepsLeft_readBack_t4 (s : State) : stepsLeft (readBack .t4 s) < 4 := by
  simp only [readBack]
  split <;> simp [stepsLeft]

theorem stepsLeft_readBack_t6 (s : State) : stepsLeft (readBack .t6 s) < 3 := by
  simp only [readBack]
  split <;> simp [stepsLeft]

theorem stepsLeft_advanceSend {s u : State} {l : SendStep} (hp : s.pos = .send l) (h : advanceSend s l = some u) :
    stepsLeft u < stepsLeft s := by
  cases l with
  | s1check =>
    simp only [advanceSend, Option.some.injEq] at h
    subst h
    split
    · simp only [stepsLeft, hp]; omega
    · split
      · simp only [stepsLeft, hp]; omega
      · simp only [stepsLeft, finished, hp]; omega
  | s2 =>
    simp only [advanceSend, Option.some.injEq] at h
    subst h
    split <;> simp [stepsLeft, finished, hp]
  | s5 =>
    simp only [advanceSend] at h
    split at h <;> cases h
    simp [stepsLeft, hp]
  | t3 => cases h; simpa only [stepsLeft, hp] using stepsLeft_readBack_t4 s
  | t4 => cases h; simpa only [stepsLeft, hp] using stepsLeft_readBack_t6 (rewritten s)
  | s1sleep => cases h; simp [stepsLeft, countSleep, hp]
  | s1 | s3 | s3mask | s4 | t1 | t2 | t5 | t5done | t6 => cases h; simp [stepsLeft, startPoll, finished, hp]

theorem stepsLeft_advanceReceive {s : State} {l : ReceiveStep} (hp : s.pos = .receive l) :
    stepsLeft (advanceReceive s l) < stepsLeft s := by
  cases l with
  | v1 =>
    have := stepsLeft_copyLabel (latchFrame s)
    simp only [advanceReceive]
    split
    · simp [stepsLeft, finished, hp]
    · simp only [latchFrame, stepsLeft, hp] at *; omega
  | v2 =>
    have := stepsLeft_copyLabel (copyByte s)
    simp only [advanceReceive, copyByte, stepsLeft, hp] at *; omega
  | v3 => simp [advanceReceive, stepsLeft, hp]

theorem stepsLeft_advanceSet {s : State} {l : SetStep} (hp : s.pos = .set l) :
    stepsLeft (advanceSet s l) < stepsLeft s := by
  cases l <;> simp only [advanceSet] <;> repeat' split
  all_goals simp [stepsLeft, finished, hp]

/-- Every labelled step is nearer to the end. -/
theorem stepsLeft_advance {s u : State} (hp : s.pos ≠ .none) (h : advance s = some u) : stepsLeft u < stepsLeft s := by
  cases hl : s.pos with
  | none => exact absurd hl hp
  | init l =>
    rw [advance_init hl] at h
    cases h
    cases l <;> simp [advanceInit, stepsLeft, finished, hl]
  | send l => exact stepsLeft_advanceSend hl (advance_send hl ▸ h)
  | receive l =>
    rw [advance_receive hl] at h
    cases h
    exact stepsLeft_advanceReceive hl
  | get opt =>
    rw [advance_get hl] at h
    cases h
    simp only [advanceGet]
    repeat' split
    all_goals simp [stepsLeft, finished, hl]
  | set l =>
    rw [advance_set hl] at h
    cases h
    exact stepsLeft_advanceSet hl

end Sys2Proof.Machine
end

section
/-! What an instruction, and a step of the machine, can do: one inversion lemma each. -/

namespace Sys2Proof.Machine

/-! ### Runs of labelled steps -/

/-- What every labelled step keeps, an operation that goes on keeps to where it stands. -/
theorem resumeOp_keeps {P : State → Prop}
    (hstep : ∀ u v, P u → u.pos ≠ .none → advance u = some v → P v) {s t : State} (hs : P s)
    (h : resumeOp s = .next t) : P t := by
  induction hn : stepsLeft s using Nat.strong_induction_on generalizing s with
  | _ n ih =>
    by_cases hp : s.pos = .none
    · rw [resumeOp_none hp] at h
      cases h
      exact hs
    · rw [resumeOp_eq hp] at h
      cases ha : advance s with
      | none => rw [ha] at h; cases h
      | some u =>
        rw [ha] at h
        have hu := hstep s u hs hp ha
        by_cases hq : u.sched = []
        · rw [goOnOr, goOn_quiet hq] at h
          exact ih _ (hn ▸ stepsLeft_advance hp ha) hu h rfl
        · rw [goOnOr, goOn_pending hq] at h
          cases h
          exact hu

/-- The same from the label where a command stands when it is accepted. -/
theorem goOn_keeps {P : State → Prop}
    (hstep : ∀ u v, P u → u.pos ≠ .none → advance u = some v → P v) {s t : State} (hs : P s)
    (h : goOn s = .next t) : P t := by
  by_cases hq : s.sched = []
  · exact resumeOp_keeps hstep hs (goOn_quiet hq ▸ h)
  · rw [goOn_pending hq] at h
    cases h
    exact hs

/-! ### Instructions -/

/-- The commands with an operation: where it stands once accepted, and its latched operands (R165). -/
inductive Enters : Instr → Pos → List Byte → Prop where
  | init : Enters .init (.init .i1) []
  | send (f : List Byte) : Enters (.send f) (.send .s1) f
  | receive (m : Byte) : Enters (.receive m) (.receive .v1) [m]
  | get (opt : BitVec 4) (m : Byte) : Enters (getRow opt m) (.get opt) [m]
  | set (opt : BitVec 4) (v : List Byte) : Enters (setRow opt v) (.set (.e1 opt)) v

/-- The dispatch rows with an action (42_fsm_isr.md R138 to R144). -/
inductive RunsRow : Instr → (State → State) → Prop where
  | unhandled (low : BitVec 2) : RunsRow (.dispatchUnhandled low) rowUnhandled
  | rxRearm : RunsRow .dispatchRxRearm rowRxRearm
  | rxStart : RunsRow .dispatchRxStart rowRxStart
  | rxComplete : RunsRow .dispatchRxComplete rowRxComplete
  | missedEdge : RunsRow .dispatchMissedEdge rowMissedEdge
  | txDone : RunsRow .dispatchTxDone rowTxDone
  | txBusy : RunsRow .dispatchTxBusy rowTxBusy
  | unhandledPowerDown (l : BitVec 1) : RunsRow (.dispatchUnhandledPowerDown l) rowUnhandled

theorem getRow_format (opt : BitVec 4) (m : Byte) : (getRow opt m).format = .cmd := by
  unfold getRow; split <;> rfl

theorem setRow_format (opt : BitVec 4) (v : List Byte) : (setRow opt v).format = .cmd := by
  unfold setRow; split <;> rfl

theorem Enters.format {i : Instr} {p : Pos} {b : List Byte} (h : Enters i p b) : i.format = .cmd := by
  cases h with
  | init | send | receive => rfl
  | get => exact getRow_format _ _
  | set => exact setRow_format _ _

theorem RunsRow.format {i : Instr} {row : State → State} (h : RunsRow i row) : i.format = .key := by
  cases h <;> rfl

theorem illegal_format {i : Instr} (h : i.illegal = true) : i.format = .cmd := by
  unfold Instr.illegal at h
  split at h
  case h_16 => cases h
  all_goals rfl

theorem rowRecord_format {i : Instr} {r : BusRecord} (h : rowRecord i = some r) : i.format = .record := by
  unfold rowRecord at h
  split at h
  case h_6 => cases h
  all_goals rfl

/-- The five kinds of instruction, over all 66 rows. -/
theorem exec_kinds (i : Instr) :
    (∃ p b, Enters i p b ∧ ∀ s, exec i s = accept p b s resumeOp) ∨
    (i.illegal = true ∧ ∀ s, exec i s = acceptDone errIllegal s) ∨
    (∃ k row, RunsRow i row ∧ ∀ s, exec i s = takeDispatch k row s) ∨
    (∃ r, rowRecord i = some r ∧ ∀ s, exec i s = .next (s.record r)) ∨
    (i.format ≠ .cmd ∧ ((∀ s, exec i s = .fault .invalidState) ∨ ∀ s, exec i s = .refused .reservedRecord)) := by
  cases i with
  | init => exact .inl ⟨_, _, .init, fun _ => rfl⟩
  | send f => exact .inl ⟨_, _, .send f, fun _ => rfl⟩
  | receive m => exact .inl ⟨_, _, .receive m, fun _ => rfl⟩
  | getDeviceType m => exact .inl ⟨_, _, .get 0 m, fun _ => rfl⟩
  | getProto m => exact .inl ⟨_, _, .get 1 m, fun _ => rfl⟩
  | getChannel m => exact .inl ⟨_, _, .get 2 m, fun _ => rfl⟩
  | getAddress m => exact .inl ⟨_, _, .get 3 m, fun _ => rfl⟩
  | getMaxFrame m => exact .inl ⟨_, _, .get 4 m, fun _ => rfl⟩
  | getIid m => exact .inl ⟨_, _, .get 5 m, fun _ => rfl⟩
  | getOpt6 m => exact .inl ⟨_, _, .get 6 m, fun _ => rfl⟩
  | getOpt7 m => exact .inl ⟨_, _, .get 7 m, fun _ => rfl⟩
  | getOpt8 m => exact .inl ⟨_, _, .get 8 m, fun _ => rfl⟩
  | getOpt9 m => exact .inl ⟨_, _, .get 9 m, fun _ => rfl⟩
  | getOptA m => exact .inl ⟨_, _, .get 10 m, fun _ => rfl⟩
  | getOptB m => exact .inl ⟨_, _, .get 11 m, fun _ => rfl⟩
  | getOptC m => exact .inl ⟨_, _, .get 12 m, fun _ => rfl⟩
  | getOptD m => exact .inl ⟨_, _, .get 13 m, fun _ => rfl⟩
  | getOptE m => exact .inl ⟨_, _, .get 14 m, fun _ => rfl⟩
  | getOptF m => exact .inl ⟨_, _, .get 15 m, fun _ => rfl⟩
  | setDeviceType v => exact .inl ⟨_, _, .set 0 v, fun _ => rfl⟩
  | setProto v => exact .inl ⟨_, _, .set 1 v, fun _ => rfl⟩
  | setChannel v => exact .inl ⟨_, _, .set 2 v, fun _ => rfl⟩
  | setAddress v => exact .inl ⟨_, _, .set 3 v, fun _ => rfl⟩
  | setMaxFrame v => exact .inl ⟨_, _, .set 4 v, fun _ => rfl⟩
  | setIid v => exact .inl ⟨_, _, .set 5 v, fun _ => rfl⟩
  | setOpt6 v => exact .inl ⟨_, _, .set 6 v, fun _ => rfl⟩
  | setOpt7 v => exact .inl ⟨_, _, .set 7 v, fun _ => rfl⟩
  | setOpt8 v => exact .inl ⟨_, _, .set 8 v, fun _ => rfl⟩
  | setOpt9 v => exact .inl ⟨_, _, .set 9 v, fun _ => rfl⟩
  | setOptA v => exact .inl ⟨_, _, .set 10 v, fun _ => rfl⟩
  | setOptB v => exact .inl ⟨_, _, .set 11 v, fun _ => rfl⟩
  | setOptC v => exact .inl ⟨_, _, .set 12 v, fun _ => rfl⟩
  | setOptD v => exact .inl ⟨_, _, .set 13 v, fun _ => rfl⟩
  | setOptE v => exact .inl ⟨_, _, .set 14 v, fun _ => rfl⟩
  | setOptF v => exact .inl ⟨_, _, .set 15 v, fun _ => rfl⟩
  | illegalOpc0 _ | illegalInit1 | illegalInit2 _ | illegalInit4 _ | illegalInit8 _ | illegalSend1 | illegalSend2 _
  | illegalSend4 _ | illegalSend8 _ | illegalReceive1 | illegalReceive2 _ | illegalReceive4 _ | illegalReceive8 _
  | illegalOpc6 _ | illegalOpc8 _ => exact .inr (.inl ⟨rfl, fun _ => rfl⟩)
  | dispatchUnhandled low => exact .inr (.inr (.inl ⟨_, _, .unhandled low, fun _ => rfl⟩))
  | dispatchRxRearm => exact .inr (.inr (.inl ⟨_, _, .rxRearm, fun _ => rfl⟩))
  | dispatchRxStart => exact .inr (.inr (.inl ⟨_, _, .rxStart, fun _ => rfl⟩))
  | dispatchRxComplete => exact .inr (.inr (.inl ⟨_, _, .rxComplete, fun _ => rfl⟩))
  | dispatchMissedEdge => exact .inr (.inr (.inl ⟨_, _, .missedEdge, fun _ => rfl⟩))
  | dispatchTxDone => exact .inr (.inr (.inl ⟨_, _, .txDone, fun _ => rfl⟩))
  | dispatchTxBusy => exact .inr (.inr (.inl ⟨_, _, .txBusy, fun _ => rfl⟩))
  | dispatchUnhandledPowerDown l => exact .inr (.inr (.inl ⟨_, _, .unhandledPowerDown l, fun _ => rfl⟩))
  | recRd _ _ | recWr _ _ | recBrd _ _ | recBwr _ _ | recSt _ =>
    exact .inr (.inr (.inr (.inl ⟨_, rfl, fun _ => rfl⟩)))
  | dispatchInvalid _ => exact .inr (.inr (.inr (.inr ⟨nofun, .inl fun _ => rfl⟩)))
  | recReserved5 | recReserved6 _ => exact .inr (.inr (.inr (.inr ⟨nofun, .inr fun _ => rfl⟩)))

/-- Acceptance with an operation behind it: refused while one is in progress, and otherwise the accepted
operation goes on. -/
theorem accept_eq_goOn {s : State} (hl : s.Legal) (hp : s.pos = .none) (p : Pos) (b : List Byte) :
    accept p b s resumeOp = goOn (acceptedAt s p b) := by
  rw [accept_free hl hp]
  exact goto_eq_goOn rfl

theorem accept_next {s t : State} {p : Pos} {b : List Byte} (h : accept p b s resumeOp = .next t) :
    s.Legal ∧ s.pos = .none ∧ goOn (acceptedAt s p b) = .next t := by
  obtain ⟨hl, hc⟩ := checkState_next h
  by_cases hp : s.pos = .none
  · exact ⟨hl, hp, accept_eq_goOn hl hp p b ▸ h⟩
  · rw [if_neg hp] at hc
    cases hc

theorem acceptDone_next {s t : State} {r : Result} (h : acceptDone r s = .next t) :
    s.Legal ∧ s.pos = .none ∧ t = finished r s := by
  obtain ⟨hl, hc⟩ := checkState_next h
  by_cases hp : s.pos = .none
  · rw [if_pos hp] at hc
    exact ⟨hl, hp, by simpa [finished] using hc.symm⟩
  · rw [if_neg hp] at hc
    cases hc

/-- What an instruction that answers a next state did: an accepted operation went on, an illegal command ended
at the port, a dispatch ran its row, or a record was appended. -/
theorem exec_next {i : Instr} {s t : State} (h : exec i s = .next t) :
    (∃ p b, Enters i p b ∧ s.Legal ∧ s.pos = .none ∧ goOn (acceptedAt s p b) = .next t) ∨
    (i.illegal = true ∧ s.Legal ∧ s.pos = .none ∧ t = finished errIllegal s) ∨
    (∃ row, RunsRow i row ∧ s.Legal ∧ dispatchReady s = true ∧ t = row (dispatchEntry s)) ∨
    ∃ r, rowRecord i = some r ∧ t = s.record r := by
  rcases exec_kinds i with ⟨p, b, hi, he⟩ | ⟨hi, he⟩ | ⟨k, row, hi, he⟩ | ⟨r, hi, he⟩ | ⟨-, he | he⟩
  · exact .inl ⟨p, b, hi, accept_next (he s ▸ h)⟩
  · exact .inr (.inl ⟨hi, acceptDone_next (he s ▸ h)⟩)
  · obtain ⟨hl, hr, -, ht⟩ := takeDispatch_next (he s ▸ h)
    exact .inr (.inr (.inl ⟨row, hi, hl, hr, ht⟩))
  · rw [he s] at h
    cases h
    exact .inr (.inr (.inr ⟨r, hi, rfl⟩))
  · rw [he s] at h; cases h
  · rw [he s] at h; cases h

/-! ### Steps -/

/-- TASK's step: its operation goes on, it waits, or its next command is run. -/
theorem taskStep_next {s t : State} (h : taskStep s = .next t) :
    (s.pos ≠ .none ∧ resumeOp s = .next t) ∨
    (s.pos = .none ∧ t = s) ∨
    (s.pos = .none ∧ ∃ i rest, portCommand s = some (i, rest) ∧ exec i { s with port := rest } = .next t) := by
  unfold taskStep at h
  by_cases hp : s.pos = .none
  · rw [if_pos hp] at h
    cases hc : portCommand s with
    | none =>
      rw [hc] at h
      cases h
      exact .inr (.inl ⟨hp, rfl⟩)
    | some c =>
      rw [hc] at h
      exact .inr (.inr ⟨hp, c.1, c.2, rfl, h⟩)
  · rw [if_neg hp] at h
    exact .inl ⟨hp, h⟩

theorem decodeKey_format (k : BitVec 4) : (decodeKey k).format = .key := by
  unfold decodeKey; split <;> rfl

/-- ISR's step: the row of the key, where it can be taken. -/
theorem isrStep_next {s t : State} (h : isrStep s = .next t) :
    t = s ∨
    (canDispatch s = true ∧ ∃ row, RunsRow (decodeKey (dispatchKey s)) row ∧ t = row (dispatchEntry s)) := by
  unfold isrStep at h
  by_cases hc : canDispatch s = true
  · rw [if_pos hc] at h
    have hk := decodeKey_format (dispatchKey s)
    rcases exec_next h with ⟨p, b, hi, -⟩ | ⟨hi, -⟩ | ⟨row, hi, -, -, ht⟩ | ⟨r, hi, -⟩
    · rw [hi.format] at hk; cases hk
    · rw [illegal_format hi] at hk; cases hk
    · exact .inr ⟨hc, row, hi, ht⟩
    · rw [rowRecord_format hi] at hk; cases hk
  · rw [if_neg hc] at h
    cases h
    exact .inl rfl

/-- What the pin, the port, XCVR, a stop that is over, and reset make of a state. -/
inductive EnvStep (s : State) : State → Prop where
  | skip : EnvStep s s
  | pin (level : Bool) : EnvStep s (pinChange level s)
  | present (bytes : List Byte) : EnvStep s { s with port := s.port ++ bytes }
  | answer (script : List Answer) : EnvStep s { s with answers := s.answers ++ script }

/-- What a step of the machine does: TASK's step, with its move taken and the moves after it; ISR's; another
agent's; or reset. -/
theorem step_cases {s t : State} (h : step s = .next t) : s.Legal ∧
    ((∃ q u q', taskStep { s with sched := q } = .next u ∧ t = { u with sched := q' }) ∨
    (∃ q pull, isrStep { s with sched := q, upperPull := pull } = .next t) ∨
    (∃ q, EnvStep { s with sched := q } t) ∨
    ∃ tx rx rest, s.sched = .reset tx rx :: rest ∧ t = resetBlock tx rx { s with sched := rest }) := by
  obtain ⟨hl, h⟩ := step_next h
  refine ⟨hl, ?_⟩
  have hself : ∀ {q}, s.sched = q → { s with sched := q } = s := fun hq => by cases hq; rfl
  cases hs : s.sched with
  | nil =>
    rw [nextStep_rest hs, restStep] at h
    split at h
    · exact .inr (.inl ⟨[], s.upperPull, by rw [← hself hs] at h; exact h⟩)
    · exact .inl ⟨[], t, t.sched, by rw [hself hs]; exact h, rfl⟩
  | cons m rest =>
    rw [nextStep_move hs] at h
    cases m with
    | task => exact .inl ⟨rest, t, t.sched, h, rfl⟩
    | run =>
      obtain ⟨u, hu, ht⟩ := undisturbed_next h
      exact .inl ⟨[], u, rest, hu, ht⟩
    | pin level => cases h; exact .inr (.inr (.inl ⟨rest, .pin level⟩))
    | dispatch pull => exact .inr (.inl ⟨rest, pull, h⟩)
    | stop =>
      simp only [moveStep] at h
      split at h
      · unfold stoppedStep at h
        split at h
        · exact .inr (.inl ⟨_, _, h⟩)
        · rename_i hy
          have hp : s.pos ≠ .none := fun hp => hy (by simp [hp, Pos.isYield])
          exact .inl ⟨[.stop], t, t.sched, by rw [taskStep, if_neg (by exact hp)]; exact h, rfl⟩
      · cases h; exact .inr (.inr (.inl ⟨rest, .skip⟩))
    | present bytes =>
      simp only [moveStep, presentBytes] at h
      split at h <;> cases h
      exact .inr (.inr (.inl ⟨rest, .present bytes⟩))
    | answer script => cases h; exact .inr (.inr (.inl ⟨rest, .answer script⟩))
    | reset tx rx => cases h; exact .inr (.inr (.inr ⟨tx, rx, rest, rfl, rfl⟩))

end Sys2Proof.Machine
end

section
/-! The frame of each operation: what its labelled steps leave unchanged (10_state.md R19's table). -/

namespace Sys2Proof.Machine

/-- What an operation leaves unchanged of s in t, and what no operation breaks. -/
structure CommandFrame (op : Op) (s t : State) : Prop where
  fixed : t.params = s.params ∧ t.statRxWhileTx = s.statRxWhileTx
  inputs : t.evtPin = s.evtPin ∧ t.pinPrev = s.pinPrev ∧ t.port = s.port ∧ t.sched = s.sched ∧
    t.upperPull = s.upperPull
  received : t.rxBuf = s.rxBuf ∧ t.rxLen = s.rxLen ∧ t.rxRssi = s.rxRssi ∧ t.rxLqi = s.rxLqi ∧
    t.statRx = s.statRx ∧ t.statCrcFail = s.statCrcFail ∧ t.upperCopies = s.upperCopies
  sent : op ≠ .send → t.txBuf = s.txBuf ∧ t.txLen = s.txLen ∧ t.statTx = s.statTx ∧ t.pollK = s.pollK ∧
    t.retry = s.retry ∧ t.stamp = s.stamp
  radio : op ≠ .send → op ≠ .init → t.irqEn = s.irqEn ∧ t.txFault = s.txFault ∧ t.state = s.state
  pending : op ≠ .init → t.irqPend = s.irqPend
  faultStays : op ≠ .init → s.txFault = true → t.txFault = true
  output : op ≠ .receive → op ≠ .get → t.hostOut = s.hostOut
  address : op ≠ .set → t.nodeAddr = s.nodeAddr ∧ t.channel = s.channel
  legal : s.Legal → t.Legal

theorem CommandFrame.refl (op : Op) (s : State) : CommandFrame op s s := by
  constructor <;> simp

theorem CommandFrame.trans {op : Op} {s u t : State} (h : CommandFrame op s u) (h' : CommandFrame op u t) :
    CommandFrame op s t where
  fixed := by simp [h'.fixed, h.fixed]
  inputs := by simp [h'.inputs, h.inputs]
  received := by simp [h'.received, h.received]
  sent ho := by simp [h'.sent ho, h.sent ho]
  radio ho hi := by simp [h'.radio ho hi, h.radio ho hi]
  pending ho := by simp [h'.pending ho, h.pending ho]
  faultStays ho hf := h'.faultStays ho (h.faultStays ho hf)
  output ho hg := by simp [h'.output ho hg, h.output ho hg]
  address ho := by simp [h'.address ho, h.address ho]
  legal hl := h'.legal (h.legal hl)

theorem finished_frame (op : Op) (r : Result) (s : State) : CommandFrame op s (finished r s) := by
  constructor <;> simp [finished]

theorem moveTo_frame (op : Op) (p : Pos) (s : State) : CommandFrame op s { s with pos := p } := by
  constructor <;> simp

theorem advanceInit_frame (s : State) (l : InitStep) : CommandFrame .init s (advanceInit s l) := by
  cases l with
  | i6 => constructor <;> simp [advanceInit]; split <;> simp_all
  | i7done => exact finished_frame _ _ s
  | i1 | i2 | i3 | i4 | i5 | i7 => constructor <;> simp [advanceInit]

theorem readBack_frame (l : SendStep) (s : State) : CommandFrame .send s (readBack l s) := by
  constructor <;> simp [readBack]

theorem rewritten_frame (s : State) : CommandFrame .send s (rewritten s) := by
  constructor <;> simp [rewritten]

theorem advanceSend_frame {s u : State} {l : SendStep} (h : advanceSend s l = some u) : CommandFrame .send s u := by
  cases l with
  | s1check =>
    cases h
    split
    · exact moveTo_frame ..
    · split
      · exact moveTo_frame ..
      · exact finished_frame ..
  | s2 =>
    cases h
    split
    · exact finished_frame ..
    · exact moveTo_frame ..
  | s5 =>
    simp only [advanceSend] at h
    split at h <;> cases h
    constructor <;> simp
  | t3 => cases h; exact readBack_frame ..
  | t4 => cases h; exact (rewritten_frame s).trans (readBack_frame ..)
  | t5done => cases h; exact finished_frame ..
  | s1 | s1sleep | s3 | s3mask | s4 | t1 | t2 | t5 | t6 => cases h; constructor <;> simp [finished]

theorem advanceReceive_frame (s : State) (l : ReceiveStep) : CommandFrame .receive s (advanceReceive s l) := by
  cases l with
  | v1 =>
    simp only [advanceReceive]
    split <;> constructor <;> simp [finished]
  | v2 | v3 => constructor <;> simp [advanceReceive]

theorem advanceGet_frame (s : State) (opt : BitVec 4) : CommandFrame .get s (advanceGet s opt) := by
  cases ho : optionValue opt s with
  | none => simp only [advanceGet, ho]; exact finished_frame ..
  | some bytes =>
    simp only [advanceGet, ho]
    split <;> constructor <;> simp [finished]

theorem advanceSet_frame (s : State) (l : SetStep) : CommandFrame .set s (advanceSet s l) := by
  cases l with
  | e1 opt =>
    simp only [advanceSet]
    split
    · split
      · exact finished_frame ..
      · exact moveTo_frame ..
    · exact finished_frame ..
  | c1 =>
    simp only [advanceSet]
    split
    · exact moveTo_frame ..
    · exact finished_frame ..
  | a1 =>
    simp only [advanceSet]
    split
    · exact finished_frame ..
    · exact moveTo_frame ..
  | c2 | c2write | a2 => constructor <;> simp [advanceSet, finished]

/-- The frame of a labelled step. -/
theorem advance_frame {s u : State} (h : advance s = some u) : CommandFrame s.pos.op s u := by
  cases hp : s.pos with
  | none => rw [advance_none hp] at h; cases h; exact .refl ..
  | init l => rw [advance_init hp] at h; cases h; exact advanceInit_frame s l
  | send l => exact advanceSend_frame (advance_send hp ▸ h)
  | receive l => rw [advance_receive hp] at h; cases h; exact advanceReceive_frame s l
  | get opt => rw [advance_get hp] at h; cases h; exact advanceGet_frame s opt
  | set l => rw [advance_set hp] at h; cases h; exact advanceSet_frame s l

/-- A labelled step stays in its operation, or ends it. -/
theorem advance_op {s u : State} (h : advance s = some u) : u.pos = .none ∨ u.pos.op = s.pos.op := by
  cases hp : s.pos with
  | none => rw [advance_none hp] at h; cases h; exact .inl hp
  | init l => rw [advance_init hp] at h; cases h; cases l <;> simp [advanceInit, finished]
  | send l =>
    rw [advance_send hp] at h
    cases l with
    | s1check =>
      cases h
      repeat' split
      all_goals simp [finished]
    | s2 => cases h; split <;> simp [finished]
    | s5 => simp only [advanceSend] at h; split at h <;> cases h; simp
    | _ => cases h; simp [finished, readBack]
  | receive l =>
    rw [advance_receive hp] at h; cases h
    cases l with
    | v1 => simp only [advanceReceive]; split <;> simp [finished]
    | v2 | v3 => simp [advanceReceive]
  | get opt =>
    rw [advance_get hp] at h; cases h
    simp only [advanceGet]
    repeat' split
    all_goals exact .inl rfl
  | set l =>
    rw [advance_set hp] at h; cases h
    cases l <;> simp only [advanceSet] <;> repeat' split
    all_goals simp [finished]

/-- The frame of an operation that goes on, to its end or to where it stands. -/
theorem resumeOp_frame {s t : State} (h : resumeOp s = .next t) : CommandFrame s.pos.op s t := by
  refine (resumeOp_keeps (P := fun u => (u.pos = .none ∨ u.pos.op = s.pos.op) ∧ CommandFrame s.pos.op s u)
    ?_ ⟨.inr rfl, .refl ..⟩ h).2
  rintro u v ⟨hop, hu⟩ hp ha
  have he : u.pos.op = s.pos.op := hop.resolve_left hp
  exact ⟨he ▸ advance_op ha, hu.trans (he ▸ advance_frame ha)⟩

theorem goOn_frame {s t : State} (h : goOn s = .next t) : CommandFrame s.pos.op s t := by
  by_cases hq : s.sched = []
  · exact resumeOp_frame (goOn_quiet hq ▸ h)
  · rw [goOn_pending hq] at h
    cases h
    exact .refl ..

/-- The frame of a command from its acceptance on. -/
theorem acceptedAt_frame (op : Op) (s : State) (p : Pos) (b : List Byte) : CommandFrame op s (acceptedAt s p b) := by
  constructor <;> simp [acceptedAt]

theorem command_frame {s t : State} {p : Pos} {b : List Byte} (h : goOn (acceptedAt s p b) = .next t) :
    CommandFrame p.op s t :=
  (acceptedAt_frame ..).trans (goOn_frame h)

end Sys2Proof.Machine
end

section
/-! O51: TASK's single steps refine the undisturbed run (70_reset_and_hazards.md R226; log 2). -/

namespace Sys2Proof.Machine

/-! ### A labelled step does not look at the schedule -/

/-- The state with other moves to come. -/
def withSched (q : List Move) (s : State) : State := { s with sched := q }

theorem nextAnswer_withSched (r : Byte) (q : List Move) (s : State) :
    nextAnswer r (withSched q s) = ((nextAnswer r s).1, withSched q (nextAnswer r s).2) := by
  simp only [nextAnswer, withSched]
  cases takeAnswer r s.answers <;> rfl

theorem busRead_withSched (r : Byte) (q : List Move) (s : State) :
    busRead r (withSched q s) = ((busRead r s).1, withSched q (busRead r s).2) := by
  simp only [busRead, nextAnswer_withSched]
  rfl

theorem readBack_withSched (l : SendStep) (q : List Move) (s : State) :
    readBack l (withSched q s) = withSched q (readBack l s) := by
  have h := busRead_withSched s.params.regTxBytes q s
  simp only [readBack, show (withSched q s).params = s.params from rfl, h]
  rfl

theorem advanceSend_withSched (q : List Move) (s : State) (l : SendStep) :
    advanceSend (withSched q s) l = (advanceSend s l).map (withSched q) := by
  cases l with
  | s1check => simp only [advanceSend, Option.map_some, apply_ite (withSched q)]; rfl
  | s2 => simp only [advanceSend, Option.map_some, apply_ite (withSched q)]; rfl
  | s5 => simp only [advanceSend, apply_ite (Option.map (withSched q))]; rfl
  | t3 => exact congrArg some (readBack_withSched _ q s)
  | t4 => exact congrArg some (readBack_withSched _ q (rewritten s))
  | s1 | s1sleep | s3 | s3mask | s4 | t1 | t2 | t5 | t5done | t6 => rfl

theorem advanceReceive_withSched (q : List Move) (s : State) (l : ReceiveStep) :
    advanceReceive (withSched q s) l = withSched q (advanceReceive s l) := by
  cases l with
  | v1 => simp only [advanceReceive, apply_ite (withSched q)]; rfl
  | v2 | v3 => rfl

theorem advanceGet_withSched (q : List Move) (s : State) (opt : BitVec 4) :
    advanceGet (withSched q s) opt = withSched q (advanceGet s opt) := by
  have ho : optionValue opt (withSched q s) = optionValue opt s := rfl
  cases h : optionValue opt s with
  | none => simp only [advanceGet, ho, h]; rfl
  | some bytes => simp only [advanceGet, ho, h, apply_ite (withSched q)]; rfl

theorem advanceSet_withSched (q : List Move) (s : State) (l : SetStep) :
    advanceSet (withSched q s) l = withSched q (advanceSet s l) := by
  cases l with
  | e1 opt => simp only [advanceSet, apply_ite (withSched q)]; rfl
  | c1 => simp only [advanceSet, apply_ite (withSched q)]; rfl
  | a1 => simp only [advanceSet, apply_ite (withSched q)]; rfl
  | c2 | c2write | a2 => rfl

theorem advance_withSched (q : List Move) (s : State) : advance (withSched q s) = (advance s).map (withSched q) := by
  cases hp : s.pos with
  | none => rw [advance_none hp, advance_none (by exact hp)]; rfl
  | init l =>
    rw [advance_init hp, advance_init (by exact hp)]
    cases l <;> rfl
  | send l => rw [advance_send hp, advance_send (by exact hp), advanceSend_withSched]
  | receive l => rw [advance_receive hp, advance_receive (by exact hp), advanceReceive_withSched]; rfl
  | get opt => rw [advance_get hp, advance_get (by exact hp), advanceGet_withSched]; rfl
  | set l => rw [advance_set hp, advance_set (by exact hp), advanceSet_withSched]; rfl

/-! ### Single steps -/

/-- A move of TASK is one labelled step of its operation. -/
theorem step_task_advance {s u : State} {q : List Move} (hl : s.Legal) (hp : s.pos ≠ .none) (hq : q ≠ [])
    (ha : advance s = some u) : step (withSched (.task :: q) s) = .next (withSched q u) := by
  rw [step_legal (by exact hl), nextStep_move (m := .task) (rest := q) rfl]
  show taskStep (withSched q s) = _
  rw [taskStep, if_neg (by exact hp), resumeOp_eq (by exact hp), advance_withSched, ha]
  exact goOn_pending hq

theorem run_succ {s u : State} (h : step s = .next u) (n : Nat) :
    Host.Core.run core (n + 1) s = Host.Core.run core n u := by
  have hc : core.step s = .next u := h
  simp only [Host.Core.run, hc]

/-- The moves of TASK alone, then others. -/
def taskMoves (n : Nat) (rest : List Move) : List Move := List.replicate n .task ++ rest

theorem taskMoves_succ (n : Nat) (rest : List Move) : taskMoves (n + 1) rest = .task :: taskMoves n rest := rfl

theorem taskMoves_ne_nil {rest : List Move} (h : rest ≠ []) (n : Nat) : taskMoves n rest ≠ [] := by
  simp [taskMoves, h]

/-- The simulation: where the undisturbed run ends, single moves of TASK end too. -/
theorem resumeOp_refined {s t : State} {rest : List Move} (hr : rest ≠ []) (hl : s.Legal) (hq : s.sched = [])
    (h : resumeOp s = .next t) :
    ∃ n, Host.Core.run core n (withSched (taskMoves n rest) s) = .next (withSched rest t) := by
  induction hn : stepsLeft s using Nat.strong_induction_on generalizing s with
  | _ n ih =>
    by_cases hp : s.pos = .none
    · rw [resumeOp_none hp] at h
      cases h
      exact ⟨0, rfl⟩
    · rw [resumeOp_eq hp] at h
      cases ha : advance s with
      | none => rw [ha] at h; cases h
      | some u =>
        have hf := advance_frame ha
        obtain ⟨-, -, -, hsched, -⟩ := hf.inputs
        have hu : u.sched = [] := hsched.trans hq
        rw [ha, goOnOr, goOn_quiet hu] at h
        obtain ⟨m, hm⟩ := ih _ (hn ▸ stepsLeft_advance hp ha) (hf.legal hl) hu h rfl
        refine ⟨m + 1, ?_⟩
        rw [taskMoves_succ, run_succ (step_task_advance hl hp (taskMoves_ne_nil hr m) ha), hm]

/-! ### Commands -/

theorem withOperand_format {α : Type} {f : α → Instr} (hf : ∀ x, (f x).format = .cmd) {o : Option (α × List Byte)}
    {r : Instr × List Byte} (h : withOperand f o = .ok r) : r.1.format = .cmd := by
  cases o with
  | none => cases h
  | some x => cases h; exact hf x.1

theorem initOf_format (opt : BitVec 4) : (initOf opt).format = .cmd := by
  unfold initOf; repeat' split
  all_goals rfl

theorem illegalSendOf_format (opt : BitVec 4) : (illegalSendOf opt).format = .cmd := by
  unfold illegalSendOf; repeat' split
  all_goals rfl

theorem illegalReceiveOf_format (opt : BitVec 4) : (illegalReceiveOf opt).format = .cmd := by
  unfold illegalReceiveOf; repeat' split
  all_goals rfl

/-- The command decoder answers commands only. -/
theorem decodeCmd_format {bytes : List Byte} {r : Instr × List Byte} (h : decodeCmd bytes = .ok r) :
    r.1.format = .cmd := by
  cases bytes with
  | nil => cases h
  | cons c bs =>
    simp only [decodeCmd] at h
    split at h
    · cases h; rfl
    · cases h; exact initOf_format _
    · split at h
      · exact withOperand_format (fun _ => rfl) h
      · cases h; exact illegalSendOf_format _
    · split at h
      · exact withOperand_format (fun _ => rfl) h
      · cases h; exact illegalReceiveOf_format _
    · exact withOperand_format (getRow_format _) h
    · exact withOperand_format (setRow_format _) h
    · cases h; rfl
    · cases h; rfl
    · cases h; rfl

theorem portCommand_format {s : State} {i : Instr} {rest : List Byte} (h : portCommand s = some (i, rest)) :
    i.format = .cmd := by
  unfold portCommand at h
  split at h
  · rename_i r hd
    cases h
    exact decodeCmd_format hd
  · cases h

/-- A command is an operation's, or illegal. -/
theorem exec_cmd_kinds {i : Instr} (h : i.format = .cmd) :
    (∃ p b, Enters i p b ∧ ∀ s, exec i s = accept p b s resumeOp) ∨
    (i.illegal = true ∧ ∀ s, exec i s = acceptDone errIllegal s) := by
  rcases exec_kinds i with hk | hk | ⟨k, row, hi, -⟩ | ⟨r, hi, -⟩ | ⟨hi, -⟩
  · exact .inl hk
  · exact .inr hk
  · rw [hi.format] at h; cases h
  · rw [rowRecord_format hi] at h; cases h
  · exact absurd h hi

/-- Settles O51: the acceptance of a command is one move of TASK, and each labelled step after it one more; the
undisturbed run is those same steps, by induction on the steps left. -/
theorem taskStepsRefineWholeCommand : Obligations.TaskStepsRefineWholeCommand := by
  intro s t rest hl hq hr h
  show ∃ n, Host.Core.run core n (withSched (taskMoves n rest) s) = .next (withSched rest t)
  rcases taskStep_next h with ⟨hp, h⟩ | ⟨hp, rfl⟩ | ⟨hp, i, more, hc, h⟩
  · exact resumeOp_refined hr hl hq h
  · exact ⟨0, rfl⟩
  · have hstep : ∀ n, step (withSched (.task :: taskMoves n rest) s) =
        exec i (withSched (taskMoves n rest) { s with port := more }) := by
      intro n
      rw [step_legal (by exact hl), nextStep_move (m := .task) (rest := taskMoves n rest) rfl]
      show taskStep (withSched (taskMoves n rest) s) = _
      rw [taskStep, if_pos (by exact hp), show portCommand (withSched (taskMoves n rest) s) = _ from hc]
      rfl
    rcases exec_cmd_kinds (portCommand_format hc) with ⟨p, b, hi, he⟩ | ⟨hi, he⟩
    · obtain ⟨hl', -, hg⟩ := accept_next (he _ ▸ h)
      have hq' : (acceptedAt { s with port := more } p b).sched = [] := hq
      obtain ⟨n, hn⟩ := resumeOp_refined hr (by exact hl) hq' (goOn_quiet hq' ▸ hg)
      refine ⟨n + 1, ?_⟩
      rw [taskMoves_succ, run_succ _ n, hn]
      rw [hstep, he, accept_eq_goOn (by exact hl) (by exact hp)]
      exact goOn_pending (taskMoves_ne_nil hr n)
    · obtain ⟨-, -, rfl⟩ := acceptDone_next (he _ ▸ h)
      refine ⟨1, ?_⟩
      rw [taskMoves_succ, run_succ (u := withSched rest (finished errIllegal { s with port := more })) _ 0]
      · rfl
      · rw [hstep, he, acceptDone_free (by exact hl) (by exact hp)]
        rfl

end Sys2Proof.Machine
end

section
/-! O37, O57, O58, O60: who writes which field, and the independence of contexts. -/

namespace Sys2Proof.Machine

/-! ### Which command an operation belongs to -/

theorem Enters.eq_send {i : Instr} {p : Pos} {b : List Byte} (h : Enters i p b) (hp : p.op = .send) : i = .send b := by
  cases h with
  | send => rfl
  | init | receive | get | set => cases hp

theorem Enters.eq_init {i : Instr} {p : Pos} {b : List Byte} (h : Enters i p b) (hp : p.op = .init) : i = .init := by
  cases h with
  | init => rfl
  | send | receive | get | set => cases hp

theorem Enters.eq_receive {i : Instr} {p : Pos} {b : List Byte} (h : Enters i p b) (hp : p.op = .receive) :
    ∃ m, i = .receive m := by
  cases h with
  | receive m => exact ⟨m, rfl⟩
  | init | send | get | set => cases hp

theorem Enters.eq_get {i : Instr} {p : Pos} {b : List Byte} (h : Enters i p b) (hp : p.op = .get) :
    ∃ opt m, i = getRow opt m := by
  cases h with
  | get opt m => exact ⟨opt, m, rfl⟩
  | init | send | receive | set => cases hp

theorem Enters.eq_set {i : Instr} {p : Pos} {b : List Byte} (h : Enters i p b) (hp : p.op = .set) :
    ∃ opt, i = setRow opt b ∧ p = .set (.e1 opt) := by
  cases h with
  | set opt _ => exact ⟨opt, rfl, rfl⟩
  | init | send | receive | get => cases hp

/-! ### The frame of a dispatch row -/

/-- What every dispatch row leaves unchanged, the reception alone writing the Receive Buffer's fields. -/
structure RowFrame (i : Instr) (s t : State) : Prop where
  fixed : t.params = s.params ∧ t.statRxWhileTx = s.statRxWhileTx ∧ t.nodeAddr = s.nodeAddr ∧
    t.channel = s.channel
  inputs : t.evtPin = s.evtPin ∧ t.pinPrev = s.pinPrev ∧ t.port = s.port ∧ t.sched = s.sched ∧
    t.upperPull = s.upperPull
  received : i ≠ .dispatchRxComplete → t.rxBuf = s.rxBuf ∧ t.rxLen = s.rxLen ∧ t.rxRssi = s.rxRssi ∧
    t.rxLqi = s.rxLqi ∧ t.statRx = s.statRx ∧ t.statCrcFail = s.statCrcFail ∧ t.upperCopies = s.upperCopies
  sent : t.txBuf = s.txBuf ∧ t.txLen = s.txLen ∧ t.statTx = s.statTx ∧ t.pollK = s.pollK ∧
    t.retry = s.retry ∧ t.stamp = s.stamp
  mask : t.irqEn = s.irqEn ∧ t.txFault = s.txFault
  output : t.hostOut = s.hostOut
  task : t.pos = s.pos ∧ t.hostIn = s.hostIn ∧ t.copyN = s.copyN ∧ t.copyRssi = s.copyRssi ∧
    t.copyLqi = s.copyLqi ∧ t.copyIdx = s.copyIdx

theorem RunsRow.frame {i : Instr} {row : State → State} (h : RunsRow i row) (s : State) :
    RowFrame i s (row (dispatchEntry s)) := by
  cases h with
  | unhandled | unhandledPowerDown => constructor <;> simp [rowUnhandled]
  | rxRearm => constructor <;> simp [rowRxRearm]
  | rxStart => constructor <;> simp [rowRxStart]
  | rxComplete => constructor <;> simp
  | missedEdge => constructor <;> simp [rowMissedEdge]
  | txDone => constructor <;> simp [rowTxDone]
  | txBusy => constructor <;> simp [rowTxBusy]

/-! ### `tx_fault` -/

/-- Of all instructions INIT alone clears `tx_fault`. -/
theorem exec_clears_txFault {i : Instr} {s t : State} (h : exec i s = .next t) (hs : s.txFault = true)
    (ht : t.txFault = false) : i = .init := by
  rcases exec_next h with ⟨p, b, hi, -, -, hg⟩ | ⟨-, -, -, rfl⟩ | ⟨row, hi, -, -, rfl⟩ | ⟨r, -, rfl⟩
  · by_contra hne
    have := (command_frame hg).faultStays (fun hp => hne (hi.eq_init hp)) hs
    simp [ht] at this
  · simp [finished, hs] at ht
  · simp [(hi.frame s).mask, hs] at ht
  · simp [hs] at ht

/-- Settles O37: an operation other than INIT, a dispatch and the other agents' moves keep a set `tx_fault`. -/
theorem onlyInitOrResetClearsTxFault : Obligations.OnlyInitOrResetClearsTxFault := by
  intro s t h hs ht
  obtain ⟨-, ⟨q, u, q', hu, rfl⟩ | ⟨q, pull, hi⟩ | ⟨q, he⟩ | ⟨tx, rx, rest, hq, -⟩⟩ := step_cases h
  · rcases taskStep_next hu with ⟨-, hr⟩ | ⟨-, rfl⟩ | ⟨hp, i, rest, hc, hx⟩
    · by_contra hne
      have := (resumeOp_frame hr).faultStays (fun hp => hne (.inl hp)) hs
      simp [show u.txFault = false from ht] at this
    · simp [hs] at ht
    · obtain rfl := exec_clears_txFault hx hs ht
      exact .inr (.inl ⟨hp, rest, hc⟩)
  · rcases isrStep_next hi with rfl | ⟨-, row, hr, rfl⟩
    · simp [hs] at ht
    · simp [(hr.frame _).mask, hs] at ht
  · cases he <;> simp [hs] at ht
  · exact .inr (.inr ⟨tx, rx, rest, hq⟩)

/-! ### `node_addr` and `channel` -/

/-- What SET's undisturbed run stores: nothing, or the checked value of SET ADDRESS or of SET CHANNEL. -/
theorem setE1_stores {opt : BitVec 4} {s t : State} (hq : s.sched = []) (h : setE1 opt s = .next t) :
    (t.nodeAddr = s.nodeAddr ∧ t.channel = s.channel) ∨
    (opt = optAddress ∧ s.hostIn ≠ [] ∧ s.setValue ≠ broadcast ∧ t.nodeAddr = s.setValue ∧ t.channel = s.channel) ∨
    (opt = optChannel ∧ s.hostIn ≠ [] ∧ channelInRange s.setValue s = true ∧ t.channel = s.setValue ∧
      t.nodeAddr = s.nodeAddr) := by
  unfold setE1 at h
  split at h
  · rename_i ho
    split at h
    · cases h; exact .inl ⟨rfl, rfl⟩
    · rename_i hv
      split at h
      · rename_i hc
        rw [goto_quiet hq, setC1] at h
        split at h
        · rename_i hr
          rw [goto_quiet (by exact hq), setC2, goto_quiet (by exact hq)] at h
          cases h
          exact .inr (.inr ⟨hc, hv, hr, rfl, rfl⟩)
        · cases h; exact .inl ⟨rfl, rfl⟩
      · rename_i hc
        rw [goto_quiet hq, setA1] at h
        split at h
        · cases h; exact .inl ⟨rfl, rfl⟩
        · rename_i hz
          rw [goto_quiet (by exact hq)] at h
          cases h
          exact .inr (.inl ⟨ho.resolve_left hc, hv, hz, rfl, rfl⟩)
  · cases h; exact .inl ⟨rfl, rfl⟩

/-- What an accepted SET stores, whole or only accepted. -/
theorem set_writes {opt : BitVec 4} {b : List Byte} {s t : State}
    (h : goOn (acceptedAt s (.set (.e1 opt)) b) = .next t) :
    (t.nodeAddr = s.nodeAddr ∨ ∃ v vs, setRow opt b = .setAddress (v :: vs) ∧ v ≠ 0 ∧ t.nodeAddr = v) ∧
    (t.channel = s.channel ∨ ∃ v vs, setRow opt b = .setChannel (v :: vs) ∧ s.params.chanMin ≤ v ∧
      v ≤ s.params.chanMax ∧ t.channel = v) := by
  by_cases hq : s.sched = []
  · rw [goOn_quiet (by exact hq)] at h
    have hw := setE1_stores (s := acceptedAt s (.set (.e1 opt)) b) hq h
    cases b with
    | nil =>
      rcases hw with ⟨ha, hc⟩ | ⟨-, hb, -⟩ | ⟨-, hb, -⟩
      · exact ⟨.inl ha, .inl hc⟩
      · exact absurd rfl hb
      · exact absurd rfl hb
    | cons v vs =>
      rcases hw with ⟨ha, hc⟩ | ⟨rfl, -, hv, ha, hc⟩ | ⟨rfl, -, hr, hc, ha⟩
      · exact ⟨.inl ha, .inl hc⟩
      · exact ⟨.inr ⟨v, vs, rfl, hv, ha⟩, .inl hc⟩
      · have hr : s.params.chanMin ≤ v ∧ v ≤ s.params.chanMax := by
          simpa [channelInRange, acceptedAt, State.setValue] using hr
        exact ⟨.inl ha, .inr ⟨v, vs, rfl, hr.1, hr.2, hc⟩⟩
  · rw [goOn_pending (by exact hq)] at h
    cases h
    exact ⟨.inl rfl, .inl rfl⟩

/-- Settles O57: the frames leave SET alone, and SET stores only the value it has checked. -/
theorem addressAndChannelWriters : Obligations.AddressAndChannelWriters := by
  intro i s t h
  rcases exec_next h with ⟨p, b, hi, -, -, hg⟩ | ⟨-, -, -, rfl⟩ | ⟨row, hi, -, -, rfl⟩ | ⟨r, -, rfl⟩
  · have hf := command_frame hg
    refine ⟨hf.fixed.1, hf.fixed.2, ?_⟩
    by_cases hp : p.op = .set
    · obtain ⟨opt, rfl, rfl⟩ := hi.eq_set hp
      exact set_writes hg
    · exact ⟨.inl (hf.address hp).1, .inl (hf.address hp).2⟩
  · exact ⟨rfl, rfl, .inl rfl, .inl rfl⟩
  · obtain ⟨hp, hw, ha, hc⟩ := (hi.frame s).fixed
    exact ⟨hp, hw, .inl ha, .inl hc⟩
  · exact ⟨rfl, rfl, .inl rfl, .inl rfl⟩

/-! ### Every field's writers -/

/-- Settles O58: from the frame of the operation, of the row or of the record. -/
theorem writersOfEachField : Obligations.WritersOfEachField := by
  intro i s t h
  rcases exec_next h with ⟨p, b, hi, -, -, hg⟩ | ⟨hi, -, -, rfl⟩ | ⟨row, hi, -, -, rfl⟩ | ⟨r, hi, rfl⟩
  · have hf := command_frame hg
    have hs : (∀ f, i ≠ .send f) → p.op ≠ .send := fun hn hp => hn b (hi.eq_send hp)
    have hn : i ≠ .init → p.op ≠ .init := fun hn hp => hn (hi.eq_init hp)
    refine ⟨fun h => hf.sent (hs h), fun _ => hf.received, fun h h' => ?_, fun _ h => hf.pending (hn h),
      fun h h' => hf.output (fun hp => ?_) (fun hp => ?_), fun h h' _ => (hf.radio (hs h) (hn h')).2.2,
      fun h => ?_, hf.inputs⟩
    · exact ⟨(hf.radio (hs h) (hn h')).1, (hf.radio (hs h) (hn h')).2.1⟩
    · obtain ⟨m, hm⟩ := hi.eq_receive hp
      exact h m hm
    · obtain ⟨opt, m, hm⟩ := hi.eq_get hp
      exact h' opt m hm
    · rw [hi.format] at h; cases h
  · have hk := illegal_format hi
    simp [finished, hk]
  · have hf := hi.frame s
    have hk := hi.format
    simp only [hk]
    exact ⟨fun _ => hf.sent, hf.received, fun _ _ => hf.mask, nofun, fun _ _ => hf.output, nofun, nofun, hf.inputs⟩
  · have hk := rowRecord_format hi
    simp [State.record, hk]

/-! ### Several contexts -/

theorem stepNode_zero {n : Node} {ns ms : List Node} (h : stepNode (n :: ns) 0 = some ms) :
    ∃ t, step n.ctx = .next t ∧ ms = { n with ctx := t } :: ns := by
  simp only [stepNode] at h
  split at h
  · rename_i t ht
    exact ⟨t, ht, by simpa using h.symm⟩
  · cases h
  · cases h

theorem stepNode_succ {n : Node} {ns ms : List Node} {k : Nat} (h : stepNode (n :: ns) (k + 1) = some ms) :
    ∃ ms', stepNode ns k = some ms' ∧ ms = n :: ms' := by
  simp only [stepNode] at h
  split at h
  · cases h
  · rename_i ms' hm
    exact ⟨ms', hm, by simpa using h.symm⟩

/-- A step of the k-th node, by induction on the list. -/
theorem stepNode_spec {ns ms : List Node} {k : Nat} (h : stepNode ns k = some ms) :
    ms.length = ns.length ∧ (∀ j, j ≠ k → ms[j]? = ns[j]?) ∧
    ∃ n t, ns[k]? = some n ∧ step n.ctx = .next t ∧ ms[k]? = some { n with ctx := t } := by
  induction ns generalizing k ms with
  | nil => cases h
  | cons n ns ih =>
    cases k with
    | zero =>
      obtain ⟨t, ht, rfl⟩ := stepNode_zero h
      refine ⟨rfl, fun j hj => ?_, n, t, rfl, ht, rfl⟩
      cases j with
      | zero => exact absurd rfl hj
      | succ j => rfl
    | succ k =>
      obtain ⟨ms', hm, rfl⟩ := stepNode_succ h
      obtain ⟨hlen, hother, n', t, hn, ht, hk⟩ := ih hm
      refine ⟨by simp [hlen], fun j hj => ?_, n', t, hn, ht, hk⟩
      cases j with
      | zero => rfl
      | succ j => exact hother j (by omega)

/-- Settles O60: the step's spec by induction on the list of nodes, the refusal by instantiation's own condition. -/
theorem instancesIndependent : Obligations.InstancesIndependent := by
  refine ⟨fun _ _ _ => stepNode_spec, fun bs => ?_⟩
  unfold instantiate
  split <;> rename_i hc
  · simpa using hc
  · simpa [or_iff_not_imp_left] using hc

end Sys2Proof.Machine
end

section
/-! O54: the invariant, split into what holds of the data at every label and what each label promises, and kept
by every labelled step, every dispatch row, every other agent's move and reset. -/

namespace Sys2Proof.Machine

/-! ### The invariant, label by label -/

/-- R210, R124, R218: masked while Unknown, and locked after a double transmit failure. -/
def RadioOk (s : State) : Prop :=
  (s.state = RadioState.unknown.code → s.irqEn = false) ∧
  (s.txFault = true → s.irqEn = false ∧ s.state = RadioState.transmitting.code)

/-- A space in canonical form and inside its 255 bytes (20_memory.md R46 to R48). -/
def BufferOk (m : Memory) : Prop := m.wf ∧ m.within maxFrame

/-- R20, R22. -/
def AddressOk (s : State) : Prop :=
  s.nodeAddr ≠ broadcast ∧ s.params.chanMin ≤ s.channel ∧ s.channel ≤ s.params.chanMax

/-- The part of the invariant that does not look at the sequencer's label. -/
structure DataInv (s : State) : Prop where
  params : s.params.wf ∧ s.statRxWhileTx = 0
  legal : s.Legal
  pin : s.pinPrev = s.evtPin
  address : AddressOk s
  sent : BufferOk s.txBuf ∧ s.pollK ≤ pollMax
  received : BufferOk s.rxBuf
  output : BufferOk s.hostOut
  radio : RadioOk s

/-- SEND's masked region (R62, R131). -/
def Masked (s : State) : Prop := s.irqEn = false ∧ s.state = RadioState.transmitting.code

/-- What SEND's S3 may find, past its poll (R150). -/
def Raced (s : State) : Prop := s.Eligible ∨ s.state = RadioState.receivingBusy.code

/-- What each label promises of the state that stands there. -/
def LabelFacts (s : State) : Pos → Prop
  | .init .i2 => s.irqEn = false
  | .init .i3 | .init .i4 | .init .i5 => s.irqEn = false ∧ s.txFault = false
  | .init .i6 | .init .i7 => s.irqEn = false ∧ s.txFault = false ∧ s.state ≠ RadioState.unknown.code
  | .init .i7done => s.txFault = false
  | .send .s1sleep => s.pollK < pollMax
  | .send .s2 => s.txFault = false ∧ Raced s
  | .send .s3 | .send .s3mask => s.txFault = false ∧ Raced s ∧ s.size ≤ maxFrame
  | .send .s4 | .send .s5 => s.txFault = false ∧ Masked s ∧ s.size ≤ maxFrame
  | .send .t1 | .send .t2 | .send .t3 | .send .t4 | .send .t5 | .send .t6 =>
      s.txFault = false ∧ Masked s ∧ s.size ≤ maxFrame ∧ s.txLen = u8 s.size
  | .send .t5done => s.txFault = false ∧ s.size ≤ maxFrame ∧ s.txLen = u8 s.size
  | .receive .v2 => s.copyIdx < s.copyN.toNat
  | .set .c2 => s.params.chanMin ≤ s.setValue ∧ s.setValue ≤ s.params.chanMax
  | .set .c2write => s.setValue = s.channel
  | .set .a2 => s.setValue ≠ broadcast
  | .none | .init .i1 | .send .s1 | .send .s1check | .receive .v1 | .receive .v3 | .get _ | .set (.e1 _)
  | .set .c1 | .set .a1 => True

theorem MachineInv.data {s : State} (h : MachineInv s) : DataInv s where
  params := ⟨h.paramsWf, h.rxWhileTxZero⟩
  legal := h.legal
  pin := h.pinSeen
  address := ⟨h.addrLegal, h.channelLow, h.channelHigh⟩
  sent := ⟨⟨h.txBufWf, h.txBufIn⟩, h.pollBound⟩
  received := ⟨h.rxBufWf, h.rxBufIn⟩
  output := ⟨h.hostOutWf, h.hostOutIn⟩
  radio := ⟨h.unknownMasked, h.faultLock⟩

theorem MachineInv.label {s : State} (h : MachineInv s) : LabelFacts s s.pos := by
  have hsl := h.sleepBound
  have hsm := h.sendMask
  have him := h.initMask
  have hra := h.raceStates
  have hsz := h.sizeOk
  have htx := h.txLenOk
  have hcp := h.copyBound
  have hch := h.channelChecked
  have had := h.addressChecked
  have hcl := h.channelLatched
  have hil := h.initLeft
  have hff := h.faultFree
  generalize s.pos = p at *
  cases p with
  | none | get => trivial
  | init l =>
    cases l with
    | i1 => trivial
    | i2 => exact him rfl
    | i3 | i4 | i5 => exact ⟨him rfl, hff rfl⟩
    | i6 => exact ⟨him rfl, hff rfl, hil (.inl rfl)⟩
    | i7 => exact ⟨him rfl, hff rfl, hil (.inr rfl)⟩
    | i7done => exact hff rfl
  | send l =>
    cases l with
    | s1 | s1check => trivial
    | s1sleep => exact hsl rfl
    | s2 => exact ⟨hff rfl, hra rfl⟩
    | s3 | s3mask => exact ⟨hff rfl, hra rfl, hsz rfl⟩
    | s4 | s5 => exact ⟨hff rfl, hsm rfl, hsz rfl⟩
    | t1 | t2 | t3 | t4 | t5 | t6 => exact ⟨hff rfl, hsm rfl, hsz rfl, htx rfl⟩
    | t5done => exact ⟨hff rfl, hsz rfl, htx rfl⟩
  | receive l =>
    cases l with
    | v1 | v3 => trivial
    | v2 => exact hcp rfl
  | set l =>
    cases l with
    | e1 | c1 | a1 => trivial
    | c2 => exact hch rfl
    | c2write => exact hcl rfl
    | a2 => exact had rfl

theorem LabelFacts.masked {s : State} {p : Pos} (h : LabelFacts s p) (hp : p.sendMasked = true) : Masked s := by
  unfold Pos.sendMasked at hp
  split at hp
  case h_9 => cases hp
  all_goals exact h.2.1

theorem LabelFacts.initMasked {s : State} {p : Pos} (h : LabelFacts s p) (hp : p.initMasked = true) :
    s.irqEn = false := by
  unfold Pos.initMasked at hp
  split at hp
  case h_1 => exact h
  case h_7 => cases hp
  all_goals exact h.1

theorem LabelFacts.raced {s : State} {p : Pos} (h : LabelFacts s p) (hp : p.raced = true) : Raced s := by
  unfold Pos.raced at hp
  split at hp
  · exact h.2
  · exact h.2.1
  · exact h.2.1
  · cases hp

theorem LabelFacts.sizeChecked {s : State} {p : Pos} (h : LabelFacts s p) (hp : p.sizeChecked = true) :
    s.size ≤ maxFrame := by
  cases p with
  | send l =>
    cases l with
    | s1 | s1check | s1sleep | s2 => cases hp
    | s3 | s3mask | s4 | s5 => exact h.2.2
    | t1 | t2 | t3 | t4 | t5 | t6 => exact h.2.2.1
    | t5done => exact h.2.1
  | none | init | receive | get | set => cases hp

theorem LabelFacts.txLoaded {s : State} {p : Pos} (h : LabelFacts s p) (hp : p.txLoaded = true) :
    s.txLen = u8 s.size := by
  unfold Pos.txLoaded at hp
  split at hp
  case h_6 => exact h.2.2
  case h_8 => cases hp
  all_goals exact h.2.2.2

theorem LabelFacts.faultFree {s : State} {p : Pos} (h : LabelFacts s p) (hp : p.faultFree = true) :
    s.txFault = false := by
  cases p with
  | send l =>
    cases l with
    | s1 | s1check | s1sleep => cases hp
    | _ => exact h.1
  | init l =>
    cases l with
    | i1 | i2 => cases hp
    | i3 | i4 | i5 => exact h.2
    | i6 | i7 => exact h.2.1
    | i7done => exact h
  | none | receive | get | set => cases hp

/-- The invariant from its two parts. -/
theorem DataInv.machineInv {s : State} (h : DataInv s) (hl : LabelFacts s s.pos) : MachineInv s where
  paramsWf := h.params.1
  legal := h.legal
  addrLegal := h.address.1
  channelLow := h.address.2.1
  channelHigh := h.address.2.2
  rxWhileTxZero := h.params.2
  txBufWf := h.sent.1.1
  txBufIn := h.sent.1.2
  rxBufWf := h.received.1
  rxBufIn := h.received.2
  hostOutWf := h.output.1
  hostOutIn := h.output.2
  pollBound := h.sent.2
  pinSeen := h.pin
  unknownMasked := h.radio.1
  faultLock := h.radio.2
  sleepBound hp := by rw [hp] at hl; exact hl
  copyBound hp := by rw [hp] at hl; exact hl
  channelChecked hp := by rw [hp] at hl; exact hl
  addressChecked hp := by rw [hp] at hl; exact hl
  channelLatched hp := by rw [hp] at hl; exact hl
  initLeft hp := by rcases hp with hp | hp <;> (rw [hp] at hl; exact hl.2.2)
  sendMask := hl.masked
  initMask := hl.initMasked
  raceStates := hl.raced
  sizeOk := hl.sizeChecked
  txLenOk := hl.txLoaded
  faultFree := hl.faultFree

/-! ### Labelled steps -/

/-- The data part after an operation's labelled step: the frame keeps all but the operation's own fields. -/
theorem DataInv.of_frame {op : Op} {s t : State} (h : DataInv s) (hf : CommandFrame op s t)
    (haddr : op = .set → AddressOk t) (hsent : op = .send → BufferOk t.txBuf ∧ t.pollK ≤ pollMax)
    (hout : op = .receive ∨ op = .get → BufferOk t.hostOut) (hradio : op = .send ∨ op = .init → RadioOk t) :
    DataInv t where
  params := by rw [hf.fixed.1, hf.fixed.2]; exact h.params
  legal := hf.legal h.legal
  pin := by rw [hf.inputs.1, hf.inputs.2.1]; exact h.pin
  received := by rw [hf.received.1]; exact h.received
  address := by
    by_cases ho : op = .set
    · exact haddr ho
    · rw [AddressOk, (hf.address ho).1, (hf.address ho).2, hf.fixed.1]; exact h.address
  sent := by
    by_cases ho : op = .send
    · exact hsent ho
    · obtain ⟨hb, -, -, hk, -⟩ := hf.sent ho
      rw [hb, hk]; exact h.sent
  output := by
    by_cases ho : op = .receive ∨ op = .get
    · exact hout ho
    · rw [not_or] at ho
      rw [hf.output ho.1 ho.2]; exact h.output
  radio := by
    by_cases ho : op = .send ∨ op = .init
    · exact hradio ho
    · rw [not_or] at ho
      obtain ⟨he, hx, hs⟩ := hf.radio ho.1 ho.2
      rw [RadioOk, he, hx, hs]; exact h.radio

theorem advanceInit_keeps {s : State} {l : InitStep} (hr : RadioOk s) (hl : LabelFacts s (.init l)) :
    RadioOk (advanceInit s l) ∧ LabelFacts (advanceInit s l) (advanceInit s l).pos := by
  cases l with
  | i1 => exact ⟨⟨fun _ => rfl, fun hx => ⟨rfl, (hr.2 hx).2⟩⟩, rfl⟩
  | i2 => exact ⟨⟨hr.1, nofun⟩, hl, rfl⟩
  | i3 | i4 => exact ⟨hr, hl⟩
  | i5 =>
    obtain ⟨he, hx⟩ := hl
    exact ⟨⟨nofun, fun h => absurd h (by simp [advanceInit, hx])⟩, he, hx, by simp [advanceInit]⟩
  | i6 =>
    obtain ⟨he, hx, hs⟩ := hl
    have hs' : (armReceive s).state ≠ RadioState.unknown.code := by
      rw [armReceive_state]
      split
      · decide
      · exact hs
    exact ⟨⟨fun _ => he, fun h => absurd h (by simp [advanceInit, hx])⟩, he, hx, hs'⟩
  | i7 =>
    obtain ⟨he, hx, hs⟩ := hl
    exact ⟨⟨fun h => absurd h hs, fun h => absurd h (by simp [advanceInit, hx])⟩, hx⟩
  | i7done => exact ⟨hr, trivial⟩

/-- The read-back changes nothing that the masked labels promise. -/
theorem readBack_keeps {s : State} {l : SendStep} (hl : l = .t4 ∨ l = .t6) (hr : RadioOk s)
    (h : LabelFacts s (.send .t3)) : RadioOk (readBack l s) ∧ LabelFacts (readBack l s) (readBack l s).pos := by
  have hf : LabelFacts (readBack l s) (.send .t3) := by
    simpa [LabelFacts, Masked, readBack, State.size] using h
  refine ⟨by simpa [RadioOk, readBack] using hr, ?_⟩
  have hp : (readBack l s).pos = .send .t5 ∨ (readBack l s).pos = .send l := by
    simp only [readBack]
    split
    · exact .inl rfl
    · exact .inr rfl
  rcases hp with hp | hp <;> rw [hp]
  · exact hf
  · rcases hl with rfl | rfl <;> exact hf

theorem fillTxBuf_bufferOk {s : State} (h : BufferOk s.txBuf) (hs : s.size ≤ maxFrame) :
    BufferOk (fillTxBuf s).txBuf := by
  have hlen : (s.hostIn.take s.size).length ≤ maxFrame := le_trans (List.length_take_le ..) hs
  exact ⟨stampBuf_wf (Memory.wf_writeBytes h.1 ..) _,
    stampBuf_within (Memory.within_writeBytes h.2 _ (by rw [Nat.zero_add]; exact hlen)) _⟩

theorem advanceSend_keeps {s u : State} {l : SendStep} (hb : BufferOk s.txBuf ∧ s.pollK ≤ pollMax) (hr : RadioOk s)
    (hl : LabelFacts s (.send l)) (ha : advanceSend s l = some u) :
    (BufferOk u.txBuf ∧ u.pollK ≤ pollMax) ∧ RadioOk u ∧ LabelFacts u u.pos := by
  cases l with
  | s1 => cases ha; exact ⟨⟨hb.1, Nat.zero_le _⟩, hr, trivial⟩
  | s1check =>
    cases ha
    by_cases he : eligible s = true
    · have hs := (eligible_iff s).mp he
      have hx : s.txFault = false := by
        by_contra hx
        have ht := (hr.2 (by simpa using hx)).2
        rcases hs with hs | hs <;> (rw [ht] at hs; revert hs; decide)
      rw [if_pos he]
      exact ⟨hb, hr, hx, .inl hs⟩
    · rw [if_neg he]
      split
      · rename_i hk
        exact ⟨hb, hr, hk⟩
      · exact ⟨hb, hr, trivial⟩
  | s1sleep => cases ha; exact ⟨⟨hb.1, hl⟩, hr, trivial⟩
  | s2 =>
    cases ha
    split
    · exact ⟨hb, hr, trivial⟩
    · rename_i hs
      exact ⟨hb, hr, hl.1, hl.2, Nat.not_lt.mp hs⟩
  | s3 => cases ha; exact ⟨hb, hr, hl⟩
  | s3mask => cases ha; exact ⟨hb, ⟨nofun, fun _ => ⟨rfl, rfl⟩⟩, hl.1, ⟨rfl, rfl⟩, hl.2.2⟩
  | s4 => cases ha; exact ⟨hb, hr, hl⟩
  | s5 =>
    obtain ⟨hx, hm, hs⟩ := hl
    rw [advanceSend, if_neg (Nat.not_lt.mpr hs)] at ha
    cases ha
    exact ⟨⟨fillTxBuf_bufferOk hb.1 hs, hb.2⟩, hr, hx, hm, hs, rfl⟩
  | t1 =>
    obtain ⟨hx, hm, hs⟩ := hl
    cases ha
    exact ⟨hb, ⟨fun _ => rfl, fun h => ⟨rfl, (hr.2 h).2⟩⟩, hx, ⟨rfl, hm.2⟩, hs⟩
  | t2 => cases ha; exact ⟨hb, hr, hl⟩
  | t3 => cases ha; exact ⟨by simpa [readBack] using hb, readBack_keeps (.inl rfl) hr hl⟩
  | t4 => cases ha; exact ⟨by simpa [readBack, rewritten] using hb, readBack_keeps (s := rewritten s) (.inr rfl) hr hl⟩
  | t5 =>
    obtain ⟨hx, hm, hs⟩ := hl
    cases ha
    exact ⟨hb, ⟨nofun, fun h => absurd h (by simp [hx])⟩, hx, hs⟩
  | t5done => cases ha; exact ⟨hb, hr, trivial⟩
  | t6 => cases ha; exact ⟨hb, ⟨hr.1, fun _ => hl.2.1⟩, trivial⟩

/-- Where the copy loop stands, its promise holds. -/
theorem labelFacts_copyLabel (s : State) :
    LabelFacts { s with pos := .receive (copyLabel s) } (.receive (copyLabel s)) := by
  by_cases h : s.copyIdx < s.copyN.toNat
  · simp only [copyLabel, if_pos h]; exact h
  · simp only [copyLabel, if_neg h]; trivial

theorem advanceReceive_keeps {s : State} {l : ReceiveStep} (hb : BufferOk s.hostOut)
    (hl : LabelFacts s (.receive l)) :
    BufferOk (advanceReceive s l).hostOut ∧ LabelFacts (advanceReceive s l) (advanceReceive s l).pos := by
  cases l with
  | v1 =>
    simp only [advanceReceive]
    split
    · exact ⟨hb, trivial⟩
    · exact ⟨hb, labelFacts_copyLabel (latchFrame s)⟩
  | v2 =>
    have hi : s.copyIdx < maxFrame := by
      have := s.copyN.isLt
      have : s.copyIdx < s.copyN.toNat := hl
      simp only [maxFrame]; omega
    exact ⟨⟨Memory.wf_write hb.1 .., Memory.within_write hb.2 hi _⟩, labelFacts_copyLabel (copyByte s)⟩
  | v3 => exact ⟨hb, trivial⟩

theorem advanceGet_keeps {s : State} {opt : BitVec 4} (hb : BufferOk s.hostOut) :
    BufferOk (advanceGet s opt).hostOut ∧ LabelFacts (advanceGet s opt) (advanceGet s opt).pos := by
  cases ho : optionValue opt s with
  | none => simp only [advanceGet, ho]; exact ⟨hb, trivial⟩
  | some bytes =>
    have hlen := optionValue_length ho
    simp only [advanceGet, ho]
    split
    · exact ⟨hb, trivial⟩
    · exact ⟨⟨Memory.wf_writeBytes hb.1 .., Memory.within_writeBytes hb.2 _ (by simp only [maxFrame]; omega)⟩, trivial⟩

theorem advanceSet_keeps {s : State} {l : SetStep} (hd : AddressOk s) (hl : LabelFacts s (.set l)) :
    AddressOk (advanceSet s l) ∧ LabelFacts (advanceSet s l) (advanceSet s l).pos := by
  cases l with
  | e1 opt =>
    simp only [advanceSet]
    repeat' split
    all_goals exact ⟨hd, trivial⟩
  | c1 =>
    simp only [advanceSet]
    split
    · rename_i hc
      exact ⟨hd, by simpa [LabelFacts, channelInRange, State.setValue] using hc⟩
    · exact ⟨hd, trivial⟩
  | c2 => exact ⟨⟨hd.1, hl⟩, rfl⟩
  | c2write => exact ⟨hd, trivial⟩
  | a1 =>
    simp only [advanceSet]
    split
    · exact ⟨hd, trivial⟩
    · rename_i hz
      exact ⟨hd, hz⟩
  | a2 => exact ⟨⟨hl, hd.2⟩, trivial⟩

/-- A labelled step keeps the invariant. -/
theorem advance_keeps {s u : State} (h : MachineInv s) (ha : advance s = some u) : MachineInv u := by
  have hd := h.data
  have hl := h.label
  have hf := advance_frame ha
  cases hp : s.pos with
  | none => rw [advance_none hp] at ha; cases ha; exact h
  | init l =>
    rw [hp] at hl hf
    rw [advance_init hp] at ha
    cases ha
    obtain ⟨hr, hl⟩ := advanceInit_keeps hd.radio hl
    exact (hd.of_frame hf nofun nofun nofun fun _ => hr).machineInv hl
  | send l =>
    rw [hp] at hl hf
    rw [advance_send hp] at ha
    obtain ⟨hb, hr, hl⟩ := advanceSend_keeps hd.sent hd.radio hl ha
    exact (hd.of_frame hf nofun (fun _ => hb) nofun fun _ => hr).machineInv hl
  | receive l =>
    rw [hp] at hl hf
    rw [advance_receive hp] at ha
    cases ha
    obtain ⟨hb, hl⟩ := advanceReceive_keeps hd.output hl
    exact (hd.of_frame hf nofun nofun (fun _ => hb) nofun).machineInv hl
  | get opt =>
    rw [hp] at hf
    rw [advance_get hp] at ha
    cases ha
    obtain ⟨hb, hl⟩ := advanceGet_keeps (opt := opt) hd.output
    exact (hd.of_frame hf nofun nofun (fun _ => hb) nofun).machineInv hl
  | set l =>
    rw [hp] at hl hf
    rw [advance_set hp] at ha
    cases ha
    obtain ⟨hb, hl⟩ := advanceSet_keeps hd.address hl
    exact (hd.of_frame hf (fun _ => hb) nofun nofun nofun).machineInv hl

/-! ### Dispatches -/

/-- What each row does to `state`: an enabled dispatch leaves it, or one of the two receiving states (R149). -/
theorem RunsRow.state {i : Instr} {row : State → State} (h : RunsRow i row) (s : State) :
    (row (dispatchEntry s)).state = s.state ∨ (row (dispatchEntry s)).state = RadioState.receiving.code ∨
    (row (dispatchEntry s)).state = RadioState.receivingBusy.code := by
  cases h with
  | unhandled | unhandledPowerDown | rxRearm | missedEdge | txBusy => exact .inl rfl
  | rxStart => exact .inr (.inr rfl)
  | rxComplete => exact .inr (.inl (rowRxComplete_state _))
  | txDone => exact .inr (.inl rfl)

/-- A delivery writes at most 255 bytes, all inside RXBUF (R159). -/
theorem rxDeliver_bufferOk {s : State} (h : BufferOk s.rxBuf) (n rssi : Byte) (q : BitVec 7) :
    BufferOk (rxDeliver n rssi q s).rxBuf := by
  have hw : (rxDeliver n rssi q s).rxBuf = s.rxBuf.writeBytes 0 (burstRead s.params.regRxFifo n.toNat s).1 := by
    simp [rxDeliver]
  have hn : 0 + (burstRead s.params.regRxFifo n.toNat s).1.length ≤ maxFrame := by
    have := n.isLt
    simp only [burstRead_length, maxFrame]; omega
  rw [hw]
  exact ⟨Memory.wf_writeBytes h.1 .., Memory.within_writeBytes h.2 _ hn⟩

/-- A reception keeps RXBUF canonical and inside its space, whatever comes of it. -/
theorem rowRxComplete_bufferOk {s : State} (h : BufferOk s.rxBuf) : BufferOk (rowRxComplete s).rxBuf := by
  have hp : BufferOk (rxPath s).2.rxBuf := by
    simp only [rxPath, rxMetadata, rxIntegrity]
    split
    · split
      · split
        · exact rxDeliver_bufferOk (by simpa using h) ..
        · simpa using h
      · simpa using h
    · exact h
  simpa [rowRxComplete] using hp

theorem RunsRow.bufferOk {i : Instr} {row : State → State} (h : RunsRow i row) {s : State} (hb : BufferOk s.rxBuf) :
    BufferOk (row (dispatchEntry s)).rxBuf := by
  cases h with
  | rxComplete => exact rowRxComplete_bufferOk hb
  | unhandled | unhandledPowerDown | rxRearm | rxStart | missedEdge | txDone | txBusy => exact hb

/-- A label's promises survive an enabled dispatch: at the masked labels none can run, and what S3 may find takes
in the two states that a dispatch sets. -/
theorem LabelFacts.dispatch {i : Instr} {s t : State} {p : Pos} (h : LabelFacts s p) (he : s.irqEn = true)
    (hf : RowFrame i s t)
    (hst : t.state = s.state ∨ t.state = RadioState.receiving.code ∨ t.state = RadioState.receivingBusy.code) :
    LabelFacts t p := by
  obtain ⟨-, hin, hn, -, -, hi⟩ := hf.task
  obtain ⟨-, hlen, -, hk, -⟩ := hf.sent
  obtain ⟨hpar, -, -, hch⟩ := hf.fixed
  have hx := hf.mask.2
  have hsize : t.size = s.size := by rw [State.size, State.size, hin]
  have hval : t.setValue = s.setValue := by rw [State.setValue, State.setValue, hin]
  have hrace : Raced s → Raced t := fun hr => by
    rcases hst with hs | hs | hs
    · rw [Raced, State.Eligible, hs]; exact hr
    · exact .inl (.inr hs)
    · exact .inr hs
  have hmask : s.irqEn ≠ false := by simp [he]
  cases p with
  | none | get => trivial
  | init l =>
    cases l with
    | i1 => trivial
    | i2 => exact absurd h hmask
    | i3 | i4 | i5 | i6 | i7 => exact absurd h.1 hmask
    | i7done => exact hx.trans h
  | send l =>
    cases l with
    | s1 | s1check => trivial
    | s1sleep => rw [LabelFacts, hk]; exact h
    | s2 => exact ⟨hx.trans h.1, hrace h.2⟩
    | s3 | s3mask => exact ⟨hx.trans h.1, hrace h.2.1, hsize ▸ h.2.2⟩
    | s4 | s5 | t1 | t2 | t3 | t4 | t5 | t6 => exact absurd h.2.1.1 hmask
    | t5done => rw [LabelFacts, hx, hlen, hsize]; exact h
  | receive l =>
    cases l with
    | v1 | v3 => trivial
    | v2 => rw [LabelFacts, hi, hn]; exact h
  | set l =>
    cases l with
    | e1 | c1 | a1 => trivial
    | c2 => rw [LabelFacts, hval, hpar]; exact h
    | c2write => rw [LabelFacts, hval, hch]; exact h
    | a2 => rw [LabelFacts, hval]; exact h

/-- An enabled dispatch keeps the invariant: it leaves Unknown alone, and no device with `tx_fault` set can take
one. -/
theorem dispatch_keeps {i : Instr} {row : State → State} {s : State} (h : MachineInv s) (hr : RunsRow i row)
    (he : s.irqEn = true) : MachineInv (row (dispatchEntry s)) := by
  have hd := h.data
  have hf := hr.frame s
  have hst := hr.state s
  have hb := hr.bufferOk hd.received
  generalize row (dispatchEntry s) = t at *
  obtain ⟨hpar, hw, haddr, hch⟩ := hf.fixed
  obtain ⟨hpin, hprev, -⟩ := hf.inputs
  obtain ⟨htx, -, -, hk, -⟩ := hf.sent
  have hu : s.state ≠ RadioState.unknown.code := fun hu => by simpa [he] using hd.radio.1 hu
  refine DataInv.machineInv
    { params := ?_, legal := ?_, pin := ?_, address := ?_, sent := ?_, received := hb, output := ?_,
      radio := ⟨?_, ?_⟩ } ?_
  · rw [hpar, hw]; exact hd.params
  · rcases hst with hs | hs | hs
    · rw [State.Legal, hs]; exact hd.legal
    · rw [State.Legal, hs]; decide
    · rw [State.Legal, hs]; decide
  · rw [hpin, hprev]; exact hd.pin
  · rw [AddressOk, haddr, hch, hpar]; exact hd.address
  · rw [htx, hk]; exact hd.sent
  · rw [hf.output]; exact hd.output
  · intro ht
    rcases hst with hs | hs | hs
    · exact absurd (hs.symm.trans ht) hu
    · rw [hs] at ht; cases ht
    · rw [hs] at ht; cases ht
  · intro hx
    simpa [he] using (hd.radio.2 (hf.mask.2 ▸ hx)).1
  · rw [hf.task.1]
    exact h.label.dispatch he hf hst

/-! ### Instructions, agents, steps -/

/-- The invariant does not look at the port, the answers, the pull, the schedule and the bus trace. -/
theorem MachineInv.environment {s : State} (h : MachineInv s) {port : List Byte} {answers : List Answer} {pull : Bool}
    {sched : List Move} {trace : List BusRecord} :
    MachineInv { s with port := port, answers := answers, upperPull := pull, sched := sched, busTrace := trace } :=
  have ⟨hp, hl, hn, ha, ht, hr, ho, hx⟩ := h.data
  DataInv.machineInv ⟨hp, hl, hn, ha, ht, hr, ho, hx⟩ h.label

/-- EDGE has seen the level that the pin takes (R133). -/
theorem MachineInv.pinChange {s : State} (h : MachineInv s) (level : Bool) : MachineInv (pinChange level s) :=
  have ⟨hp, hl, _, ha, ht, hr, ho, hx⟩ := h.data
  DataInv.machineInv ⟨hp, hl, rfl, ha, ht, hr, ho, hx⟩ h.label

theorem MachineInv.resetBlock {s : State} (h : MachineInv s) (tx rx : List Byte) : MachineInv (resetBlock tx rx s) := by
  obtain ⟨hmin, hmax, haddr, -⟩ := h.paramsWf
  have hd : DataInv (Machine.resetBlock tx rx s) :=
    { params := ⟨h.paramsWf, rfl⟩
      legal := RadioState.unknown.code_legal
      pin := rfl
      address := ⟨haddr, hmin, hmax⟩
      sent := ⟨⟨Memory.wf_ofBytes tx, Memory.within_ofBytes tx⟩, h.pollBound⟩
      received := ⟨Memory.wf_ofBytes rx, Memory.within_ofBytes rx⟩
      output := h.data.output
      radio := ⟨fun _ => rfl, nofun⟩ }
  exact hd.machineInv trivial

theorem MachineInv.finished {s : State} (h : MachineInv s) (r : Result) : MachineInv (finished r s) :=
  (h.data.of_frame (finished_frame .none r s) nofun nofun nofun nofun).machineInv trivial

/-- A command is accepted at a label that promises nothing. -/
theorem MachineInv.acceptedAt {s : State} (h : MachineInv s) {i : Instr} {p : Pos} {b : List Byte}
    (hi : Enters i p b) : MachineInv (acceptedAt s p b) := by
  have hd := h.data.of_frame (acceptedAt_frame .none s p b) nofun nofun nofun nofun
  refine hd.machineInv ?_
  cases hi <;> trivial

/-- Every instruction keeps the invariant. -/
theorem exec_keeps {i : Instr} {s t : State} (h : MachineInv s) (hx : exec i s = .next t) : MachineInv t := by
  rcases exec_next hx with ⟨p, b, hi, -, -, hg⟩ | ⟨-, -, -, rfl⟩ | ⟨row, hi, -, hr, rfl⟩ | ⟨r, -, rfl⟩
  · exact goOn_keeps (fun _ _ hu _ ha => advance_keeps hu ha) (h.acceptedAt hi) hg
  · exact h.finished _
  · exact dispatch_keeps h hi ((dispatchReady_iff s).mp hr).1
  · exact h.environment

theorem taskStep_keeps {s t : State} (h : MachineInv s) (ht : taskStep s = .next t) : MachineInv t := by
  rcases taskStep_next ht with ⟨-, hr⟩ | ⟨-, rfl⟩ | ⟨-, i, rest, -, hx⟩
  · exact resumeOp_keeps (fun _ _ hu _ ha => advance_keeps hu ha) h hr
  · exact h
  · exact exec_keeps h.environment hx

theorem isrStep_keeps {s t : State} (h : MachineInv s) (ht : isrStep s = .next t) : MachineInv t := by
  rcases isrStep_next ht with rfl | ⟨hc, row, hr, rfl⟩
  · exact h
  · rw [canDispatch, Bool.and_eq_true] at hc
    exact dispatch_keeps h hr ((dispatchReady_iff s).mp hc.2).1

theorem EnvStep.keeps {s t : State} (h : MachineInv s) (he : EnvStep s t) : MachineInv t := by
  cases he with
  | skip => exact h
  | pin level => exact h.pinChange level
  | present | answer => exact h.environment

/-- Settles O54: whichever agent acts, the labelled steps, the rows, the other agents' moves and reset keep the
invariant. -/
theorem stepKeepsInv : Obligations.StepKeepsInv := by
  intro s t h hs
  obtain ⟨-, ⟨q, u, q', hu, rfl⟩ | ⟨q, pull, hi⟩ | ⟨q, he⟩ | ⟨tx, rx, rest, -, rfl⟩⟩ := step_cases hs
  · exact (taskStep_keeps h.environment hu).environment
  · exact isrStep_keeps h.environment hi
  · exact EnvStep.keeps h.environment he
  · exact h.environment.resetBlock tx rx

end Sys2Proof.Machine
end

section
/-! O21: the interleaving points, and the row that a dispatch runs there (20_memory.md R60, 42_fsm_isr.md R136,
R137). -/

namespace Sys2Proof.Machine

/-- The interleaving points, label by label (R60). -/
theorem isYield_iff (p : Pos) : p.isYield = true ↔
    p = .none ∨ p = .init .i7done ∨
    p = .send .s1check ∨ p = .send .s1sleep ∨ p = .send .s2 ∨ p = .send .s3mask ∨ p = .send .t5done ∨
    p = .receive .v1 ∨ p = .receive .v2 ∨ (∃ opt, p = .get opt) ∨ (∃ opt, p = .set (.e1 opt)) ∨
    p = .set .c2write := by
  cases p with
  | none | get => simp [Pos.isYield]
  | init l | send l | receive l | set l => cases l <;> simp [Pos.isYield]

theorem canDispatch_iff (s : State) :
    canDispatch s = true ↔ s.pos.isYield = true ∧ s.irqEn = true ∧ s.irqPend = true := by
  rw [canDispatch, Bool.and_eq_true, dispatchReady_iff]

theorem isrStep_taken {s : State} (hy : s.pos.isYield = true) (he : s.irqEn = true) (hp : s.irqPend = true) :
    isrStep s = exec (decodeKey (dispatchKey s)) s :=
  if_pos ((canDispatch_iff s).mpr ⟨hy, he, hp⟩)

theorem isrStep_idle {s : State} (h : s.pos.isYield = false ∨ s.irqEn = false ∨ s.irqPend = false) :
    isrStep s = .next s := by
  refine if_neg fun hc => ?_
  obtain ⟨hy, he, hp⟩ := (canDispatch_iff s).mp hc
  simp [hy, he, hp] at h

/-- A dispatch row looks at the state register itself, so the step's own look adds nothing to it (R35, R145). -/
theorem checkState_exec_key {i : Instr} (h : i.format = .key) (s : State) : checkState s (exec i s) = exec i s := by
  cases i with
  | dispatchUnhandled | dispatchRxRearm | dispatchRxStart | dispatchRxComplete | dispatchMissedEdge
  | dispatchTxDone | dispatchTxBusy | dispatchUnhandledPowerDown => exact checkState_twice rfl _
  | dispatchInvalid => exact ite_self _
  | _ => cases h

/-- A step that is ISR's, at an interleaving point with the dispatch enabled and pending, is the row of the key.
The step checks the register of the state before the move, which holds what the row finds. -/
theorem step_runs_row {s u : State} (hn : nextStep s = isrStep u) (hst : u.state = s.state)
    (hy : u.pos.isYield = true) (he : u.irqEn = true) (hp : u.irqPend = true) :
    step s = exec (decodeKey (dispatchKey u)) u := by
  have hc : ∀ o, checkState s o = checkState u o := fun o => by rw [checkState, checkState, hst]
  rw [step, hn, isrStep_taken hy he hp, hc, checkState_exec_key (decodeKey_format _)]

/-- Where TASK waits and no move is left, the step is ISR's if its dispatch is enabled and pending (log 19). -/
theorem nextStep_waiting {s : State} (hq : s.sched = []) (hw : taskWaits s = true) (hr : dispatchReady s = true) :
    nextStep s = isrStep s := by
  rw [nextStep_rest hq, restStep, hw, hr]; rfl

/-- A port whose bytes decode to an error holds no whole command. -/
theorem portCommand_error {s : State} {e : DecodeError} (h : decodeCmd s.port = .error e) : portCommand s = none := by
  simp only [portCommand, h]

/-- Settles O21: by the labels, by the key's number, and by whose step it is: ISR's move, a waiting TASK's, and a
stopped TASK's at an interleaving point. -/
theorem dispatchRunsRowOfKey : Obligations.DispatchRunsRowOfKey := by
  refine ⟨isYield_iff, dispatchKey_toNat, fun s pull rest hq => ?_, fun s e hq hpos hd he hp => ?_, fun s hq hy => ?_⟩
  · have hn : nextStep s = isrStep { s with sched := rest, upperPull := pull } := nextStep_move hq
    refine ⟨step_runs_row hn rfl, fun hl h => ?_⟩
    exact (step_legal hl).trans (hn.trans (isrStep_idle h))
  · have hw : taskWaits s = true := (taskWaits_iff s).mpr ⟨hpos, portCommand_error hd⟩
    have hn := nextStep_waiting hq hw ((dispatchReady_iff s).mpr ⟨he, hp⟩)
    exact step_runs_row hn rfl ((isYield_iff s.pos).mpr (.inl hpos)) he hp
  · have hn : nextStep s = isrStep s := by rw [nextStep_stopped hq, stoppedStep_yield hy]
    refine ⟨step_runs_row hn rfl hy, fun hl h => ?_⟩
    rw [step_legal hl, hn, isrStep_idle (.inr h)]

end Sys2Proof.Machine
end

section
/-! O59 and O48: the bytes that GET, RECEIVE and a reception store (20_memory.md R48, R49), and the record that a
bus primitive appends (R53). -/

namespace Sys2Proof.Machine

/-- A MemWrite at a space's start: its bytes, then everything as before. -/
theorem Memory.read_writeBytes_zero {m : Memory} (h : m.wf) (b : List Byte) (a : Nat) :
    (m.writeBytes 0 b).read a = if a < b.length then b.getD a 0 else m.read a := by
  simp [Memory.read_writeBytes h]

/-- A copy from one space's start to another's. -/
theorem Memory.read_copy {m : Memory} (h : m.wf) (src : Memory) (n a : Nat) :
    (m.writeBytes 0 (src.readBytes 0 n)).read a = if a < n then src.read a else m.read a := by
  rw [Memory.read_writeBytes_zero h, Memory.length_readBytes]
  split
  · rename_i ha
    rw [Memory.getD_readBytes _ _ _ _ ha, Nat.zero_add]
  · rfl

/-! ### GET -/

/-- GET's rows are the GET of their option ids (30_encoding.md R79). -/
theorem exec_getRow (opt : BitVec 4) (m : Byte) (s : State) : exec (getRow opt m) s = getCommand opt m s := by
  obtain ⟨n, hn⟩ := opt
  interval_cases n <;> rfl

theorem advanceGet_pos (s : State) (opt : BitVec 4) : (advanceGet s opt).pos = .none := by
  unfold advanceGet
  split
  · rfl
  · split <;> rfl

/-- A whole GET is its acceptance and its one labelled step (44_adapter.md R169). -/
theorem exec_getRow_ready {s : State} (hr : s.Ready) (opt : BitVec 4) (m : Byte) :
    exec (getRow opt m) s = .next (advanceGet (acceptedAt s (.get opt) [m]) opt) := by
  obtain ⟨hl, hp, hq⟩ := hr
  rw [exec_getRow, getCommand, accept_quiet hl hp hq, getG1_eq]
  exact goOn_none (advanceGet_pos _ opt)

theorem advanceGet_hostOut_fits {s : State} {opt : BitVec 4} {bytes : List Byte} (ho : optionValue opt s = some bytes)
    (hm : bytes.length ≤ s.maxLen) : (advanceGet s opt).hostOut = s.hostOut.writeBytes 0 bytes := by
  simp only [advanceGet, ho, if_neg (Nat.not_lt.mpr hm)]
  rfl

/-- A reserved option, or a value that does not fit, stores nothing (R169, R176). -/
theorem advanceGet_hostOut_refused {s : State} {opt : BitVec 4}
    (h : optionValue opt s = none ∨ ∃ bytes, optionValue opt s = some bytes ∧ s.maxLen < bytes.length) :
    (advanceGet s opt).hostOut = s.hostOut := by
  rcases h with ho | ⟨bytes, ho, hm⟩
  · simp only [advanceGet, ho]
    rfl
  · simp only [advanceGet, ho, if_pos hm]
    rfl

/-! ### RECEIVE -/

/-- A whole RECEIVE is its acceptance and V1, which runs to the end (R167). -/
theorem exec_receive_ready {s : State} (hr : s.Ready) (m : Byte) :
    exec (.receive m) s = receiveV1 (acceptedAt s (.receive .v1) [m]) :=
  accept_quiet hr.1 hr.2.1 hr.2.2 _ _ _

/-- What V1, undisturbed, makes of HOSTOUT (R167): `rx_len` bytes of RXBUF at its start where they fit. -/
theorem receiveV1_hostOut {s t : State} (hq : s.sched = []) (h : receiveV1 s = .next t) :
    t.hostOut = if s.rxLen.toNat ≤ s.maxLen then s.hostOut.writeBytes 0 (s.rxBuf.readBytes 0 s.rxLen.toNat)
      else s.hostOut := by
  by_cases hm : s.rxLen.toNat ≤ s.maxLen
  · rw [receiveV1, if_neg (Nat.not_lt.mpr hm), receiveV2_quiet (by exact hq)] at h
    cases h
    rw [if_pos hm]
    rfl
  · rw [receiveV1, if_pos (Nat.lt_of_not_le hm)] at h
    cases h
    rw [if_neg hm]
    rfl

theorem exec_receive_hostOut {s t : State} {m : Byte} (hr : s.Ready) (h : exec (.receive m) s = .next t) :
    t.hostOut = if s.rxLen.toNat ≤ m.toNat then s.hostOut.writeBytes 0 (s.rxBuf.readBytes 0 s.rxLen.toNat)
      else s.hostOut :=
  receiveV1_hostOut (s := acceptedAt s (.receive .v1) [m]) hr.2.2 (exec_receive_ready hr m ▸ h)

/-! ### A reception -/

/-- P6 and P7 by what they leave (43_receive_path.md R159, R160): the burst in RXBUF, as long as `rx_len` says, its
record in the trace, and the delivery's event. -/
structure Delivers (s t : State) (b : List Byte) : Prop where
  stored : t.rxBuf = s.rxBuf.writeBytes 0 b
  length : b.length = t.rxLen.toNat
  recorded : ∃ rs, t.busTrace = s.busTrace ++ rs ∧ .brd s.params.regRxFifo b ∈ rs
  announced : t.events = s.events ++ [.frameAvailable]

/-- What the Receive Path makes of a state, by its outcome: a delivery, or nothing at all in the Receive Buffer and
the events. -/
def Reception (s : State) (r : RxOutcome × State) : Prop :=
  (r.1 = .delivered ∧ ∃ b, Delivers s r.2 b) ∨
  (r.1 ≠ .delivered ∧ r.2.rxBuf = s.rxBuf ∧ r.2.rxLen = s.rxLen ∧ r.2.events = s.events)

theorem rxDeliver_delivers (n rssi : Byte) (q : BitVec 7) (s : State) :
    Delivers s (rxDeliver n rssi q s) (burstRead s.params.regRxFifo n.toNat s).1 where
  stored := by simp [rxDeliver]
  length := by simp
  recorded := ⟨[_], by simp [rxDeliver], List.mem_singleton_self _⟩
  announced := by simp

/-- A register read before it changes nothing of what a delivery says. -/
theorem Delivers.after_read {r : Byte} {s t : State} {b : List Byte} (h : Delivers (busRead r s).2 t b) :
    Delivers s t b where
  stored := by simpa using h.stored
  length := h.length
  recorded := by
    obtain ⟨rs, ht, hb⟩ := h.recorded
    exact ⟨.rd r (busRead r s).1 :: rs, by simpa using ht, List.mem_cons_of_mem _ (by simpa using hb)⟩
  announced := by simpa using h.announced

theorem Reception.after_read {q : Byte} {s : State} {r : RxOutcome × State} (h : Reception (busRead q s).2 r) :
    Reception s r := by
  rcases h with ⟨ho, b, hd⟩ | ⟨ho, hkept⟩
  · exact .inl ⟨ho, b, hd.after_read⟩
  · exact .inr ⟨ho, by simpa using hkept⟩

theorem rxIntegrity_reception (n rssi raw : Byte) (s : State) : Reception s (rxIntegrity n rssi raw s) := by
  unfold rxIntegrity
  split
  · exact .inl ⟨rfl, _, rxDeliver_delivers ..⟩
  · exact .inr ⟨nofun, rfl, rfl, rfl⟩

theorem rxMetadata_reception (n : Byte) (s : State) : Reception s (rxMetadata n s) :=
  (rxIntegrity_reception ..).after_read.after_read

theorem rxPath_reception (s : State) : Reception s (rxPath s) := by
  unfold rxPath
  split
  · refine Reception.after_read (q := s.params.regRxBytes) (.after_read (q := s.params.regRxStatus) ?_)
    dsimp only
    split
    · exact rxMetadata_reception ..
    · exact .inr ⟨nofun, rfl, rfl, rfl⟩
  · exact .inr ⟨nofun, rfl, rfl, rfl⟩

theorem frameAvailable_notMem_logs (o : RxOutcome) : .frameAvailable ∉ o.logs := by
  cases o <;> simp [RxOutcome.logs]

/-- The row (ReceivingBusy, low): what its Receive Path does, with the outcome's log and the re-arm after it
(42_fsm_isr.md R140). -/
theorem rowRxComplete_cases (s : State) :
    (∃ b, Delivers s (rowRxComplete s) b) ∨
    ((rowRxComplete s).rxBuf = s.rxBuf ∧ (rowRxComplete s).rxLen = s.rxLen ∧
      ∃ es, (rowRxComplete s).events = s.events ++ es ∧ .frameAvailable ∉ es) := by
  rcases rxPath_reception s with ⟨ho, b, hb, hlen, ⟨rs, ht, hr⟩, he⟩ | ⟨-, hb, hlen, he⟩
  · refine .inl ⟨b, hb, hlen, ⟨rs ++ [.st s.params.strobeRx], ?_, List.mem_append_left _ hr⟩, ?_⟩
    · simp [rowRxComplete, ht]
    · simp [rowRxComplete, he, ho, RxOutcome.logs]
  · exact .inr ⟨hb, hlen, (rxPath s).1.logs, by simp [rowRxComplete, he], frameAvailable_notMem_logs _⟩

/-- Settles O59: each form's bytes are one MemWrite at its space's start, or none, and a read after it. -/
theorem memoryWritesStayInside : Obligations.MemoryWritesStayInside := by
  refine ⟨fun s t opt m hr hw h => ?_, fun s t m hr hw h a => ?_, fun s t hw h => ?_⟩
  · rw [exec_getRow_ready hr] at h
    cases h
    refine ⟨fun bytes ho hm a => ?_, fun hn a => ?_⟩
    · rw [advanceGet_hostOut_fits (s := acceptedAt s (.get opt) [m]) ho hm]
      exact Memory.read_writeBytes_zero hw bytes a
    · rw [advanceGet_hostOut_refused (s := acceptedAt s (.get opt) [m]) hn]
      rfl
  · rw [exec_receive_hostOut hr h]
    by_cases hm : s.rxLen.toNat ≤ m.toNat
    · simp only [hm, true_and, if_true, Memory.read_copy hw]
    · simp only [hm, false_and, if_false]
  · obtain ⟨-, -, -, rfl⟩ := takeDispatch_next h
    rcases rowRxComplete_cases (dispatchEntry s) with ⟨b, hb, hlen, ⟨rs, ht, hr⟩, he⟩ | ⟨hb, hlen, es, he, hn⟩
    · refine .inr ⟨b, hlen, ?_, he, fun a => ?_⟩
      · rw [ht]; simpa using hr
      · rw [hb]; exact Memory.read_writeBytes_zero hw b a
    · refine .inl ⟨hb, hlen, ?_⟩
      rw [he]; simpa using hn

/-! ### Bus records -/

/-- Settles O48: a record row is its primitive's own record, or the refusal. -/
theorem busRecordRows : Obligations.BusRecordRows :=
  fun _ _ _ _ _ _ => ⟨rfl, rfl, rfl, rfl, rfl, rfl, rfl⟩

end Sys2Proof.Machine
end

section
/-! The forms of 30_encoding.md's tables (sections 4 to 6), on which the encoder and the three decoders agree: O7
and O8. -/

namespace Sys2Proof

/-! ### The forms -/

/-- A command byte from its two fields (R77). -/
def cmdByte (opc opt : BitVec 4) : Byte := opc ++ opt

/-- A record header `{kind[2:0], 00000}` (R89). -/
def recHeader (kind : BitVec 3) : Byte := kind ++ 0#5

/-- The instruction that each form of bytes stands for: commands by OPC (R77 to R81, R85), dispatch keys (R90) and
bus records by kind (R89). -/
inductive Encodes : Format → Instr → List Byte → Prop where
  | illegalOpc0 (opt : BitVec 4) : Encodes .cmd (.illegalOpc0 opt) [cmdByte 0#4 opt]
  | init (opt : BitVec 4) : Encodes .cmd (initOf opt) [cmdByte 1#4 opt]
  | send {f : List Byte} (h : frameOperandWf f = true) : Encodes .cmd (.send f) (cmdByte 2#4 0#4 :: f)
  | illegalSend {opt : BitVec 4} (h : opt.toNat ≠ 0) : Encodes .cmd (illegalSendOf opt) [cmdByte 2#4 opt]
  | receive (m : Byte) : Encodes .cmd (.receive m) [cmdByte 3#4 0#4, m]
  | illegalReceive {opt : BitVec 4} (h : opt.toNat ≠ 0) : Encodes .cmd (illegalReceiveOf opt) [cmdByte 3#4 opt]
  | get (opt : BitVec 4) (m : Byte) : Encodes .cmd (getRow opt m) [cmdByte 4#4 opt, m]
  | set (opt : BitVec 4) {v : List Byte} (h : v.length < 256) :
      Encodes .cmd (setRow opt v) (cmdByte 5#4 opt :: counted v)
  | illegalOpc6 (low : BitVec 5) : Encodes .cmd (.illegalOpc6 low) [0x60 ||| low.setWidth 8]
  | illegalOpc8 (low : BitVec 7) : Encodes .cmd (.illegalOpc8 low) [0x80 ||| low.setWidth 8]
  | key (k : BitVec 4) : Encodes .key (decodeKey k) [k.setWidth 8]
  | rd (r v : Byte) : Encodes .record (.recRd r v) [recHeader 0#3, r, v]
  | wr (r v : Byte) : Encodes .record (.recWr r v) [recHeader 1#3, r, v]
  | brd (r : Byte) {b : List Byte} (h : b.length < 256) : Encodes .record (.recBrd r b) (recHeader 2#3 :: r :: counted b)
  | bwr (r : Byte) {b : List Byte} (h : b.length < 256) : Encodes .record (.recBwr r b) (recHeader 3#3 :: r :: counted b)
  | st (c : Byte) : Encodes .record (.recSt c) [recHeader 4#3, c]
  | reserved5 : Encodes .record .recReserved5 [recHeader 5#3]
  | reserved6 (low : BitVec 1) : Encodes .record (.recReserved6 low) [recHeader (3#2 ++ low)]

/-! ### The encoder writes them -/

theorem encode_initOf (opt : BitVec 4) : encode (initOf opt) = [cmdByte 1#4 opt] := by
  revert opt; decide

theorem encode_illegalSendOf {opt : BitVec 4} (h : opt.toNat ≠ 0) : encode (illegalSendOf opt) = [cmdByte 2#4 opt] := by
  revert opt; decide

theorem encode_illegalReceiveOf {opt : BitVec 4} (h : opt.toNat ≠ 0) :
    encode (illegalReceiveOf opt) = [cmdByte 3#4 opt] := by
  revert opt; decide

theorem encode_getRow (opt : BitVec 4) (m : Byte) : encode (getRow opt m) = [cmdByte 4#4 opt, m] := by
  obtain ⟨n, hn⟩ := opt
  interval_cases n <;> simp [getRow, encode, cmdByte]

theorem encode_setRow (opt : BitVec 4) (v : List Byte) : encode (setRow opt v) = cmdByte 5#4 opt :: counted v := by
  obtain ⟨n, hn⟩ := opt
  interval_cases n <;> simp [setRow, encode, cmdByte]

theorem encode_decodeKey (k : BitVec 4) : encode (decodeKey k) = [k.setWidth 8] := by
  revert k; decide

theorem Encodes.encode_eq {f : Format} {i : Instr} {b : List Byte} (h : Encodes f i b) : encode i = b := by
  cases h with
  | illegalOpc0 opt => revert opt; decide
  | init opt => exact encode_initOf opt
  | illegalSend h => exact encode_illegalSendOf h
  | illegalReceive h => exact encode_illegalReceiveOf h
  | get opt m => exact encode_getRow opt m
  | set opt => exact encode_setRow opt _
  | key k => exact encode_decodeKey k
  | reserved6 low => revert low; decide
  | send | receive | illegalOpc6 | illegalOpc8 | rd | wr | brd | bwr | st | reserved5 => rfl

/-! ### The decoders read them -/

@[simp] theorem opcOf_cmdByte (opc opt : BitVec 4) : opcOf (cmdByte opc opt) = opc := by
  revert opc opt; decide

@[simp] theorem optOf_cmdByte (opc opt : BitVec 4) : optOf (cmdByte opc opt) = opt := by
  revert opc opt; decide

@[simp] theorem takeByte_cons (m : Byte) (bs : List Byte) : takeByte (m :: bs) = some (m, bs) := rfl

@[simp] theorem takePair_cons (r v : Byte) (bs : List Byte) : takePair (r :: v :: bs) = some ((r, v), bs) := rfl

theorem takeBurst_counted (r : Byte) {b : List Byte} (h : b.length < 256) (rest : List Byte) :
    takeBurst (r :: (counted b ++ rest)) = some ((r, b), rest) := by
  rw [takeBurst, takeCounted_counted h]

@[simp] theorem withOperand_some {α : Type} (g : α → Instr) (x : α) (rest : List Byte) :
    withOperand g (some (x, rest)) = .ok (g x, rest) := rfl

@[simp] theorem decodeCmd_send (bs : List Byte) :
    decodeCmd (cmdByte 2#4 0#4 :: bs) = withOperand .send (takeFrame bs) := by
  simp [decodeCmd]

@[simp] theorem decodeCmd_receive (bs : List Byte) :
    decodeCmd (cmdByte 3#4 0#4 :: bs) = withOperand .receive (takeByte bs) := by
  simp [decodeCmd]

@[simp] theorem decodeCmd_get (opt : BitVec 4) (bs : List Byte) :
    decodeCmd (cmdByte 4#4 opt :: bs) = withOperand (getRow opt) (takeByte bs) := by
  simp [decodeCmd]

@[simp] theorem decodeCmd_set (opt : BitVec 4) (bs : List Byte) :
    decodeCmd (cmdByte 5#4 opt :: bs) = withOperand (setRow opt) (takeCounted bs) := by
  simp [decodeCmd]

/-- OPC 6 and 7 are 0x60 with five low bits (R85). -/
theorem decodeCmd_illegalOpc6 (low : BitVec 5) (bs : List Byte) :
    decodeCmd ((0x60 ||| low.setWidth 8) :: bs) = .ok (.illegalOpc6 low, bs) := by
  have hopc : (opcOf (0x60 ||| low.setWidth 8)).toNat = 6 ∨ (opcOf (0x60 ||| low.setWidth 8)).toNat = 7 := by
    revert low; decide
  have hlow : (0x60 ||| low.setWidth 8 : Byte).setWidth 5 = low := by revert low; decide
  rcases hopc with h | h <;> simp only [decodeCmd, h, hlow]

/-- OPC 8 to F are 0x80 with seven low bits (R85). -/
theorem decodeCmd_illegalOpc8 (low : BitVec 7) (bs : List Byte) :
    decodeCmd ((0x80 ||| low.setWidth 8) :: bs) = .ok (.illegalOpc8 low, bs) := by
  have hopc : 8 ≤ (opcOf (0x80 ||| low.setWidth 8)).toNat := by revert low; decide
  have hlow : (0x80 ||| low.setWidth 8 : Byte).setWidth 7 = low := by revert low; decide
  rw [decodeCmd]
  split
  case h_9 => rw [hlow]
  all_goals omega

theorem decodeKeyByte_key (k : BitVec 4) (bs : List Byte) :
    decodeKeyByte (k.setWidth 8 :: bs) = .ok (decodeKey k, bs) := by
  have hk : (k.setWidth 8).setWidth 4 = k := by revert k; decide
  have hlt : (k.setWidth 8).toNat < 16 := by revert k; decide
  rw [decodeKeyByte, if_pos hlt, hk]

@[simp] theorem recHeader_low (kind : BitVec 3) : (recHeader kind).extractLsb' 0 5 = 0 := by
  revert kind; decide

@[simp] theorem recHeader_kind (kind : BitVec 3) : (recHeader kind).extractLsb' 5 3 = kind := by
  revert kind; decide

@[simp] theorem decodeRecord_rd (bs : List Byte) :
    decodeRecord (recHeader 0#3 :: bs) = withOperand (fun p => .recRd p.1 p.2) (takePair bs) := by
  simp [decodeRecord]

@[simp] theorem decodeRecord_wr (bs : List Byte) :
    decodeRecord (recHeader 1#3 :: bs) = withOperand (fun p => .recWr p.1 p.2) (takePair bs) := by
  simp [decodeRecord]

@[simp] theorem decodeRecord_brd (bs : List Byte) :
    decodeRecord (recHeader 2#3 :: bs) = withOperand (fun p => .recBrd p.1 p.2) (takeBurst bs) := by
  simp [decodeRecord]

@[simp] theorem decodeRecord_bwr (bs : List Byte) :
    decodeRecord (recHeader 3#3 :: bs) = withOperand (fun p => .recBwr p.1 p.2) (takeBurst bs) := by
  simp [decodeRecord]

@[simp] theorem decodeRecord_st (bs : List Byte) :
    decodeRecord (recHeader 4#3 :: bs) = withOperand .recSt (takeByte bs) := by
  simp [decodeRecord]

@[simp] theorem decodeRecord_reserved5 (bs : List Byte) :
    decodeRecord (recHeader 5#3 :: bs) = .ok (.recReserved5, bs) := by
  simp [decodeRecord]

@[simp] theorem decodeRecord_reserved6 (low : BitVec 1) (bs : List Byte) :
    decodeRecord (recHeader (3#2 ++ low) :: bs) = .ok (.recReserved6 low, bs) := by
  obtain rfl | rfl : low = 0 ∨ low = 1 := by revert low; decide
  all_goals simp [decodeRecord]

/-- Each form is read as its instruction, whatever follows. -/
theorem Encodes.decode_append {f : Format} {i : Instr} {b : List Byte} (h : Encodes f i b) (rest : List Byte) :
    decode f (b ++ rest) = .ok (i, rest) := by
  cases h with
  | illegalOpc0 | init => simp [decode, decodeCmd]
  | illegalSend h | illegalReceive h => simp [decode, decodeCmd, h]
  | send h => simp [decode, takeFrame_frame h]
  | set opt h => simp [decode, takeCounted_counted h]
  | receive | get => simp [decode]
  | illegalOpc6 low => exact decodeCmd_illegalOpc6 low rest
  | illegalOpc8 low => exact decodeCmd_illegalOpc8 low rest
  | key k => exact decodeKeyByte_key k rest
  | brd r h | bwr r h => simp [decode, takeBurst_counted r h]
  | rd | wr | st | reserved5 | reserved6 => simp [decode]

/-! ### The forms are all there is -/

theorem initOf_illegal {opt : BitVec 4} (h : opt.toNat ≠ 0) : (initOf opt).illegal = true := by
  revert opt; decide

theorem illegalSendOf_illegal {opt : BitVec 4} (h : opt.toNat ≠ 0) : (illegalSendOf opt).illegal = true := by
  revert opt; decide

theorem illegalReceiveOf_illegal {opt : BitVec 4} (h : opt.toNat ≠ 0) : (illegalReceiveOf opt).illegal = true := by
  revert opt; decide

theorem exists_fields (c : Byte) : ∃ opc opt, c = cmdByte opc opt :=
  ⟨opcOf c, optOf c, by revert c; decide⟩

theorem exists_low_of_opc6 {c : Byte} (h : (opcOf c).toNat = 6 ∨ (opcOf c).toNat = 7) :
    ∃ low : BitVec 5, c = 0x60 ||| low.setWidth 8 :=
  ⟨c.setWidth 5, by revert c; decide⟩

theorem exists_low_of_opc8 {c : Byte} (h : 8 ≤ (opcOf c).toNat) : ∃ low : BitVec 7, c = 0x80 ||| low.setWidth 8 :=
  ⟨c.setWidth 7, by revert c; decide⟩

/-- The illegal command bytes (R85): a reserved OPC, or INIT, SEND or RECEIVE with OPT other than 0. -/
def IllegalByte (c : Byte) : Prop :=
  (opcOf c).toNat = 0 ∨ 6 ≤ (opcOf c).toNat ∨
    (1 ≤ (opcOf c).toNat ∧ (opcOf c).toNat ≤ 3 ∧ (optOf c).toNat ≠ 0)

/-- An illegal command byte is the whole form of an illegal row. -/
theorem IllegalByte.encodes {c : Byte} (h : IllegalByte c) : ∃ i, i.illegal = true ∧ Encodes .cmd i [c] := by
  rcases h with h0 | h6 | ⟨h1, h3, ho⟩
  · obtain ⟨opc, opt, rfl⟩ := exists_fields c
    obtain rfl : opc = 0#4 := BitVec.eq_of_toNat_eq (by simpa using h0)
    exact ⟨_, rfl, .illegalOpc0 opt⟩
  · by_cases h8 : 8 ≤ (opcOf c).toNat
    · obtain ⟨low, rfl⟩ := exists_low_of_opc8 h8
      exact ⟨_, rfl, .illegalOpc8 low⟩
    · obtain ⟨low, rfl⟩ := exists_low_of_opc6 (c := c) (by omega)
      exact ⟨_, rfl, .illegalOpc6 low⟩
  · obtain ⟨opc, opt, rfl⟩ := exists_fields c
    rw [opcOf_cmdByte] at h1 h3
    rw [optOf_cmdByte] at ho
    obtain rfl | rfl | rfl : opc = 1#4 ∨ opc = 2#4 ∨ opc = 3#4 := by bv_omega
    · exact ⟨_, initOf_illegal ho, .init opt⟩
    · exact ⟨_, illegalSendOf_illegal ho, .illegalSend ho⟩
    · exact ⟨_, illegalReceiveOf_illegal ho, .illegalReceive ho⟩

/-- What a command byte can be: a whole command, or the first byte of one with operands. -/
theorem cmdByte_cases (c : Byte) : (∃ i, Encodes .cmd i [c]) ∨ c = cmdByte 2#4 0#4 ∨ c = cmdByte 3#4 0#4 ∨
    (∃ opt, c = cmdByte 4#4 opt) ∨ ∃ opt, c = cmdByte 5#4 opt := by
  by_cases hi : IllegalByte c
  · obtain ⟨i, -, he⟩ := hi.encodes
    exact .inl ⟨i, he⟩
  · obtain ⟨opc, opt, rfl⟩ := exists_fields c
    rw [IllegalByte, opcOf_cmdByte, optOf_cmdByte] at hi
    obtain ⟨rfl, rfl | rfl | rfl⟩ | rfl | rfl :
        opt = 0#4 ∧ (opc = 1#4 ∨ opc = 2#4 ∨ opc = 3#4) ∨ opc = 4#4 ∨ opc = 5#4 := by bv_omega
    · exact .inl ⟨_, .init 0#4⟩
    · exact .inr (.inl rfl)
    · exact .inr (.inr (.inl rfl))
    · exact .inr (.inr (.inr (.inl ⟨opt, rfl⟩)))
    · exact .inr (.inr (.inr (.inr ⟨opt, rfl⟩)))

theorem withOperand_ok {α : Type} {g : α → Instr} {o : Option (α × List Byte)} {i : Instr} {rest : List Byte}
    (h : withOperand g o = .ok (i, rest)) : ∃ x, o = some (x, rest) ∧ i = g x := by
  cases o with
  | none => cases h
  | some x => cases h; exact ⟨x.1, rfl, rfl⟩

theorem takeByte_sound {bs rest : List Byte} {m : Byte} (h : takeByte bs = some (m, rest)) : bs = m :: rest := by
  cases bs with
  | nil => cases h
  | cons b bs => cases h; rfl

theorem takePair_sound {bs rest : List Byte} {p : Byte × Byte} (h : takePair bs = some (p, rest)) :
    bs = p.1 :: p.2 :: rest := by
  unfold takePair at h
  split at h
  · cases h; rfl
  · cases h

theorem takeBurst_sound {bs rest : List Byte} {p : Byte × List Byte} (h : takeBurst bs = some (p, rest)) :
    bs = p.1 :: (counted p.2 ++ rest) ∧ p.2.length < 256 := by
  cases bs with
  | nil => cases h
  | cons r bs =>
    simp only [takeBurst] at h
    split at h
    · cases h
    · rename_i hb
      obtain ⟨rfl, hl⟩ := takeCounted_sound hb
      cases h
      exact ⟨rfl, hl⟩

theorem decodeCmd_sound {bytes rest : List Byte} {i : Instr} (h : decodeCmd bytes = .ok (i, rest)) :
    ∃ b, Encodes .cmd i b ∧ bytes = b ++ rest := by
  cases bytes with
  | nil => cases h
  | cons c bs =>
    rcases cmdByte_cases c with ⟨j, hj⟩ | rfl | rfl | ⟨opt, rfl⟩ | ⟨opt, rfl⟩
    · cases (hj.decode_append bs).symm.trans h
      exact ⟨_, hj, rfl⟩
    · obtain ⟨f, hf, rfl⟩ := withOperand_ok (decodeCmd_send bs ▸ h)
      obtain ⟨rfl, hw⟩ := takeFrame_sound hf
      exact ⟨_, .send hw, rfl⟩
    · obtain ⟨m, hm, rfl⟩ := withOperand_ok (decodeCmd_receive bs ▸ h)
      obtain rfl := takeByte_sound hm
      exact ⟨_, .receive m, rfl⟩
    · obtain ⟨m, hm, rfl⟩ := withOperand_ok (decodeCmd_get opt bs ▸ h)
      obtain rfl := takeByte_sound hm
      exact ⟨_, .get opt m, rfl⟩
    · obtain ⟨v, hv, rfl⟩ := withOperand_ok (decodeCmd_set opt bs ▸ h)
      obtain ⟨rfl, hw⟩ := takeCounted_sound hv
      exact ⟨_, .set opt hw, rfl⟩

theorem exists_key {c : Byte} (h : c.toNat < 16) : ∃ k : BitVec 4, c = k.setWidth 8 :=
  ⟨c.setWidth 4, by revert c; decide⟩

theorem decodeKeyByte_sound {bytes rest : List Byte} {i : Instr} (h : decodeKeyByte bytes = .ok (i, rest)) :
    ∃ b, Encodes .key i b ∧ bytes = b ++ rest := by
  cases bytes with
  | nil => cases h
  | cons c bs =>
    by_cases hc : c.toNat < 16
    · obtain ⟨k, rfl⟩ := exists_key hc
      cases (decodeKeyByte_key k bs).symm.trans h
      exact ⟨_, .key k, rfl⟩
    · rw [decodeKeyByte, if_neg hc] at h
      cases h

/-- A byte with a good header's low bits is the header of its kind. -/
theorem eq_recHeader {c : Byte} (h : (c.extractLsb' 0 5).toNat = 0) : c = recHeader (c.extractLsb' 5 3) := by
  revert c; decide

theorem kind_cases (k : BitVec 3) :
    k = 0#3 ∨ k = 1#3 ∨ k = 2#3 ∨ k = 3#3 ∨ k = 4#3 ∨ k = 5#3 ∨ ∃ low : BitVec 1, k = 3#2 ++ low := by
  revert k; decide

theorem decodeRecord_sound {bytes rest : List Byte} {i : Instr} (h : decodeRecord bytes = .ok (i, rest)) :
    ∃ b, Encodes .record i b ∧ bytes = b ++ rest := by
  cases bytes with
  | nil => cases h
  | cons c bs =>
    by_cases hc : (c.extractLsb' 0 5).toNat = 0
    · obtain ⟨kind, rfl⟩ : ∃ kind, c = recHeader kind := ⟨_, eq_recHeader hc⟩
      rcases kind_cases kind with rfl | rfl | rfl | rfl | rfl | rfl | ⟨low, rfl⟩
      · obtain ⟨p, hp, rfl⟩ := withOperand_ok (decodeRecord_rd bs ▸ h)
        obtain rfl := takePair_sound hp
        exact ⟨_, .rd p.1 p.2, rfl⟩
      · obtain ⟨p, hp, rfl⟩ := withOperand_ok (decodeRecord_wr bs ▸ h)
        obtain rfl := takePair_sound hp
        exact ⟨_, .wr p.1 p.2, rfl⟩
      · obtain ⟨p, hp, rfl⟩ := withOperand_ok (decodeRecord_brd bs ▸ h)
        obtain ⟨rfl, hl⟩ := takeBurst_sound hp
        exact ⟨_, .brd p.1 hl, rfl⟩
      · obtain ⟨p, hp, rfl⟩ := withOperand_ok (decodeRecord_bwr bs ▸ h)
        obtain ⟨rfl, hl⟩ := takeBurst_sound hp
        exact ⟨_, .bwr p.1 hl, rfl⟩
      · obtain ⟨v, hv, rfl⟩ := withOperand_ok (decodeRecord_st bs ▸ h)
        obtain rfl := takeByte_sound hv
        exact ⟨_, .st v, rfl⟩
      · rw [decodeRecord_reserved5] at h
        cases h
        exact ⟨_, .reserved5, rfl⟩
      · rw [decodeRecord_reserved6] at h
        cases h
        exact ⟨_, .reserved6 low, rfl⟩
    · rw [decodeRecord, if_pos hc] at h
      cases h

/-- What a decoder reads is one of its format's forms. -/
theorem decode_sound {f : Format} {bytes rest : List Byte} {i : Instr} (h : decode f bytes = .ok (i, rest)) :
    ∃ b, Encodes f i b ∧ bytes = b ++ rest := by
  cases f with
  | cmd => exact decodeCmd_sound h
  | key => exact decodeKeyByte_sound h
  | record => exact decodeRecord_sound h

/-! ### Well-formedness is having a form -/

theorem getRow_wf (opt : BitVec 4) (m : Byte) : (getRow opt m).wf = true := by
  unfold getRow; split <;> rfl

theorem setRow_wf (opt : BitVec 4) (v : List Byte) : (setRow opt v).wf = countedWf v := by
  unfold setRow; split <;> rfl

theorem decodeKey_wf (k : BitVec 4) : (decodeKey k).wf = true := by
  unfold decodeKey; split <;> rfl

theorem initOf_wf (opt : BitVec 4) : (initOf opt).wf = true := by
  revert opt; decide

theorem illegalSendOf_wf (opt : BitVec 4) : (illegalSendOf opt).wf = true := by
  revert opt; decide

theorem illegalReceiveOf_wf (opt : BitVec 4) : (illegalReceiveOf opt).wf = true := by
  revert opt; decide

theorem Encodes.wf {f : Format} {i : Instr} {b : List Byte} (h : Encodes f i b) : i.wf = true := by
  cases h with
  | init => exact initOf_wf _
  | send h => exact h
  | illegalSend => exact illegalSendOf_wf _
  | illegalReceive => exact illegalReceiveOf_wf _
  | get => exact getRow_wf _ _
  | set _ h => rw [setRow_wf]; exact decide_eq_true h
  | key => exact decodeKey_wf _
  | brd _ h | bwr _ h => exact decide_eq_true h
  | illegalOpc0 | receive | illegalOpc6 | illegalOpc8 | rd | wr | st | reserved5 | reserved6 => rfl

theorem Encodes.format_eq {f : Format} {i : Instr} {b : List Byte} (h : Encodes f i b) : i.format = f := by
  cases h with
  | init => exact Machine.initOf_format _
  | illegalSend => exact Machine.illegalSendOf_format _
  | illegalReceive => exact Machine.illegalReceiveOf_format _
  | get => exact Machine.getRow_format _ _
  | set => exact Machine.setRow_format _ _
  | key => exact Machine.decodeKey_format _
  | illegalOpc0 | send | receive | illegalOpc6 | illegalOpc8 | rd | wr | brd | bwr | st | reserved5 | reserved6 => rfl

/-! The rows that share an OPC, or a key's action, by their low bits (R85, R90). -/

theorem initOf_low1 (low : BitVec 1) : initOf (1#3 ++ low) = .illegalInit2 low := by revert low; decide
theorem initOf_low2 (low : BitVec 2) : initOf (1#2 ++ low) = .illegalInit4 low := by revert low; decide
theorem initOf_low3 (low : BitVec 3) : initOf (1#1 ++ low) = .illegalInit8 low := by revert low; decide

theorem illegalSendOf_low1 (low : BitVec 1) : illegalSendOf (1#3 ++ low) = .illegalSend2 low := by revert low; decide
theorem illegalSendOf_low2 (low : BitVec 2) : illegalSendOf (1#2 ++ low) = .illegalSend4 low := by revert low; decide
theorem illegalSendOf_low3 (low : BitVec 3) : illegalSendOf (1#1 ++ low) = .illegalSend8 low := by revert low; decide

theorem illegalReceiveOf_low1 (low : BitVec 1) : illegalReceiveOf (1#3 ++ low) = .illegalReceive2 low := by
  revert low; decide
theorem illegalReceiveOf_low2 (low : BitVec 2) : illegalReceiveOf (1#2 ++ low) = .illegalReceive4 low := by
  revert low; decide
theorem illegalReceiveOf_low3 (low : BitVec 3) : illegalReceiveOf (1#1 ++ low) = .illegalReceive8 low := by
  revert low; decide

theorem decodeKey_unhandled (low : BitVec 2) : decodeKey (0#2 ++ low) = .dispatchUnhandled low := by
  revert low; decide
theorem decodeKey_powerDown (l : BitVec 1) : decodeKey (5#3 ++ l) = .dispatchUnhandledPowerDown l := by
  revert l; decide
theorem decodeKey_invalid (low : BitVec 2) : decodeKey (3#2 ++ low) = .dispatchInvalid low := by
  revert low; decide

/-- Every well-formed instruction has a form in one of the formats. -/
theorem exists_encodes {i : Instr} (h : i.wf = true) : ∃ f b, Encodes f i b := by
  cases i with
  | init => exact ⟨_, _, .init 0⟩
  | send f => exact ⟨_, _, .send h⟩
  | receive m => exact ⟨_, _, .receive m⟩
  | getDeviceType m => exact ⟨_, _, .get 0 m⟩
  | getProto m => exact ⟨_, _, .get 1 m⟩
  | getChannel m => exact ⟨_, _, .get 2 m⟩
  | getAddress m => exact ⟨_, _, .get 3 m⟩
  | getMaxFrame m => exact ⟨_, _, .get 4 m⟩
  | getIid m => exact ⟨_, _, .get 5 m⟩
  | getOpt6 m => exact ⟨_, _, .get 6 m⟩
  | getOpt7 m => exact ⟨_, _, .get 7 m⟩
  | getOpt8 m => exact ⟨_, _, .get 8 m⟩
  | getOpt9 m => exact ⟨_, _, .get 9 m⟩
  | getOptA m => exact ⟨_, _, .get 10 m⟩
  | getOptB m => exact ⟨_, _, .get 11 m⟩
  | getOptC m => exact ⟨_, _, .get 12 m⟩
  | getOptD m => exact ⟨_, _, .get 13 m⟩
  | getOptE m => exact ⟨_, _, .get 14 m⟩
  | getOptF m => exact ⟨_, _, .get 15 m⟩
  | setDeviceType v => exact ⟨_, _, .set 0 (of_decide_eq_true h)⟩
  | setProto v => exact ⟨_, _, .set 1 (of_decide_eq_true h)⟩
  | setChannel v => exact ⟨_, _, .set 2 (of_decide_eq_true h)⟩
  | setAddress v => exact ⟨_, _, .set 3 (of_decide_eq_true h)⟩
  | setMaxFrame v => exact ⟨_, _, .set 4 (of_decide_eq_true h)⟩
  | setIid v => exact ⟨_, _, .set 5 (of_decide_eq_true h)⟩
  | setOpt6 v => exact ⟨_, _, .set 6 (of_decide_eq_true h)⟩
  | setOpt7 v => exact ⟨_, _, .set 7 (of_decide_eq_true h)⟩
  | setOpt8 v => exact ⟨_, _, .set 8 (of_decide_eq_true h)⟩
  | setOpt9 v => exact ⟨_, _, .set 9 (of_decide_eq_true h)⟩
  | setOptA v => exact ⟨_, _, .set 10 (of_decide_eq_true h)⟩
  | setOptB v => exact ⟨_, _, .set 11 (of_decide_eq_true h)⟩
  | setOptC v => exact ⟨_, _, .set 12 (of_decide_eq_true h)⟩
  | setOptD v => exact ⟨_, _, .set 13 (of_decide_eq_true h)⟩
  | setOptE v => exact ⟨_, _, .set 14 (of_decide_eq_true h)⟩
  | setOptF v => exact ⟨_, _, .set 15 (of_decide_eq_true h)⟩
  | illegalOpc0 opt => exact ⟨_, _, .illegalOpc0 opt⟩
  | illegalInit1 => exact ⟨_, _, .init 1⟩
  | illegalInit2 low => exact initOf_low1 low ▸ ⟨_, _, .init _⟩
  | illegalInit4 low => exact initOf_low2 low ▸ ⟨_, _, .init _⟩
  | illegalInit8 low => exact initOf_low3 low ▸ ⟨_, _, .init _⟩
  | illegalSend1 => exact ⟨_, _, .illegalSend (opt := 1) (by decide)⟩
  | illegalSend2 low => exact illegalSendOf_low1 low ▸ ⟨_, _, .illegalSend (by revert low; decide)⟩
  | illegalSend4 low => exact illegalSendOf_low2 low ▸ ⟨_, _, .illegalSend (by revert low; decide)⟩
  | illegalSend8 low => exact illegalSendOf_low3 low ▸ ⟨_, _, .illegalSend (by revert low; decide)⟩
  | illegalReceive1 => exact ⟨_, _, .illegalReceive (opt := 1) (by decide)⟩
  | illegalReceive2 low => exact illegalReceiveOf_low1 low ▸ ⟨_, _, .illegalReceive (by revert low; decide)⟩
  | illegalReceive4 low => exact illegalReceiveOf_low2 low ▸ ⟨_, _, .illegalReceive (by revert low; decide)⟩
  | illegalReceive8 low => exact illegalReceiveOf_low3 low ▸ ⟨_, _, .illegalReceive (by revert low; decide)⟩
  | illegalOpc6 low => exact ⟨_, _, .illegalOpc6 low⟩
  | illegalOpc8 low => exact ⟨_, _, .illegalOpc8 low⟩
  | dispatchUnhandled low => exact decodeKey_unhandled low ▸ ⟨_, _, .key _⟩
  | dispatchRxRearm => exact ⟨_, _, .key 4⟩
  | dispatchRxStart => exact ⟨_, _, .key 5⟩
  | dispatchRxComplete => exact ⟨_, _, .key 6⟩
  | dispatchMissedEdge => exact ⟨_, _, .key 7⟩
  | dispatchTxDone => exact ⟨_, _, .key 8⟩
  | dispatchTxBusy => exact ⟨_, _, .key 9⟩
  | dispatchUnhandledPowerDown l => exact decodeKey_powerDown l ▸ ⟨_, _, .key _⟩
  | dispatchInvalid low => exact decodeKey_invalid low ▸ ⟨_, _, .key _⟩
  | recRd r v => exact ⟨_, _, .rd r v⟩
  | recWr r v => exact ⟨_, _, .wr r v⟩
  | recBrd r b => exact ⟨_, _, .brd r (of_decide_eq_true h)⟩
  | recBwr r b => exact ⟨_, _, .bwr r (of_decide_eq_true h)⟩
  | recSt c => exact ⟨_, _, .st c⟩
  | recReserved5 => exact ⟨_, _, .reserved5⟩
  | recReserved6 low => exact ⟨_, _, .reserved6 low⟩

/-- Settles O7: a well-formed instruction has a form, which the encoder writes and its format's decoder reads. -/
theorem decodeEncodeRoundTrip : Obligations.DecodeEncodeRoundTrip := by
  intro i rest h
  obtain ⟨f, b, he⟩ := exists_encodes h
  rw [he.encode_eq, he.format_eq]
  exact he.decode_append rest

/-- Settles O8: what a decoder reads is a form, which has its format, is well-formed, and is what the encoder
writes. -/
theorem encodeDecodeRoundTrip : Obligations.EncodeDecodeRoundTrip := by
  intro f bytes rest i h
  obtain ⟨b, he, rfl⟩ := decode_sound h
  exact ⟨he.format_eq, he.wf, by rw [he.encode_eq]⟩

end Sys2Proof
end

section
/-! O9, O12 and O10: what the command decoder waits for, the serialised trace, and the commands' lengths
(30_encoding.md sections 4 to 6). -/

namespace Sys2Proof

/-! ### Waiting for operands -/

theorem takeByte_enough {bs : List Byte} (h : 256 ≤ bs.length) : takeByte bs ≠ none := by
  cases bs with
  | nil => simp at h
  | cons b bs => nofun

/-- No count byte counts more than 255 bytes. -/
theorem takeExactly_ne_none (n : Byte) {bs : List Byte} (h : 255 ≤ bs.length) : takeExactly n.toNat bs ≠ none := by
  obtain ⟨x, rest, hx⟩ := takeExactly_enough (n := n.toNat) (bs := bs) (by omega)
  simp [hx]

theorem takeCounted_enough {bs : List Byte} (h : 256 ≤ bs.length) : takeCounted bs ≠ none := by
  cases bs with
  | nil => simp at h
  | cons n bs => exact takeExactly_ne_none n (by simpa using h)

theorem takeFrame_enough {bs : List Byte} (h : 256 ≤ bs.length) : takeFrame bs ≠ none := by
  cases bs with
  | nil => simp at h
  | cons l bs =>
    obtain ⟨x, hx⟩ := Option.ne_none_iff_exists'.mp (takeExactly_ne_none l (by simpa using h))
    simp [takeFrame, hx]

/-- A command with operands waits for them, and for nothing else. -/
theorem withOperand_waits {α : Type} (g : α → Instr) {o : Option (α × List Byte)} {P : Prop} (ho : P → o ≠ none) :
    (∀ e, withOperand g o = .error e → e = .incomplete) ∧ (P → ∃ i rest, withOperand g o = .ok (i, rest)) := by
  cases o with
  | none => exact ⟨fun e h => by cases h; rfl, fun h => absurd rfl (ho h)⟩
  | some x => exact ⟨nofun, fun _ => ⟨_, _, rfl⟩⟩

/-- Settles O9: a command byte is a whole command, or waits for an operand that 256 bytes hold. -/
theorem commandDecoderOnlyWaits : Obligations.CommandDecoderOnlyWaits := by
  intro bytes
  cases bytes with
  | nil => exact ⟨fun e h => by cases h; rfl, fun h => absurd h (by decide)⟩
  | cons c bs =>
    rw [show 257 ≤ (c :: bs).length ↔ 256 ≤ bs.length by simp]
    rcases cmdByte_cases c with ⟨i, hi⟩ | rfl | rfl | ⟨opt, rfl⟩ | ⟨opt, rfl⟩
    · have hd : decodeCmd (c :: bs) = .ok (i, bs) := hi.decode_append bs
      exact ⟨fun _ h => (nomatch hd.symm.trans h), fun _ => ⟨i, bs, hd⟩⟩
    · exact decodeCmd_send bs ▸ withOperand_waits _ takeFrame_enough
    · exact decodeCmd_receive bs ▸ withOperand_waits _ takeByte_enough
    · exact decodeCmd_get opt bs ▸ withOperand_waits _ takeByte_enough
    · exact decodeCmd_set opt bs ▸ withOperand_waits _ takeCounted_enough

/-- Settles O11: each word is read by the tables. -/
theorem writtenOutWordsDecode : Obligations.WrittenOutWordsDecode :=
  ⟨rfl, rfl, rfl, rfl, rfl, rfl, rfl⟩

end Sys2Proof

namespace Sys2Proof.Machine

/-! ### The serialised trace -/

theorem recordRow_format (r : BusRecord) : (recordRow r).format = .record := by
  cases r <;> rfl

theorem rowRecord_recordRow (r : BusRecord) : rowRecord (recordRow r) = some r := by
  cases r <;> rfl

/-- A record at the front of a serialised trace is read first, the rest with one unit of fuel less. -/
theorem readTrace_record {n : Nat} {bs rest : List Byte} {i : Instr} {r : BusRecord} {rs : List BusRecord}
    (hd : decodeRecord bs = .ok (i, rest)) (hr : rowRecord i = some r) (hrs : readTrace n rest = some rs) :
    readTrace (n + 1) bs = some (r :: rs) := by
  cases bs with
  | nil => cases hd
  | cons b bs => simp only [readTrace, hd, hr, hrs]

/-- Settles O12: by induction on the trace, each record by O7. -/
theorem traceSerialisationRoundTrip : Obligations.TraceSerialisationRoundTrip := by
  intro t ht
  induction t with
  | nil => rfl
  | cons r rs ih =>
    have hd := decodeEncodeRoundTrip (recordRow r) (traceBytes rs) (ht r (List.mem_cons_self ..))
    rw [recordRow_format] at hd
    exact readTrace_record hd (rowRecord_recordRow r) (ih fun q hq => ht q (List.mem_cons_of_mem r hq))

/-! ### Lengths -/

theorem length_counted (b : List Byte) : (counted b).length = b.length + 1 := rfl

theorem frameOperandWf_iff (f : List Byte) : frameOperandWf f = true ↔ f.length = (f.headD 0).toNat + 1 := by
  cases f <;> simp [frameOperandWf]

theorem length_encode_illegal {i : Instr} (h : i.illegal = true) : (encode i).length = 1 := by
  unfold Instr.illegal at h
  split at h
  case h_16 => cases h
  all_goals rfl

/-- SEND's size check, undisturbed and past the poll (41_send_tx.md R115). -/
theorem sendS1_oversize {s : State} (hq : s.sched = []) (he : s.Eligible) (hf : maxFrame < s.size) :
    sendS1 s = .next { startPoll s with pos := .none, events := s.events ++ [.done errSize none] } := by
  rw [sendS1_quiet hq, sendCheck_eligible (by exact hq) ((eligible_iff _).mpr (by exact he)), sendS2,
    if_pos (by exact hf)]
  rfl

theorem exec_send_oversize {s : State} (hr : s.Ready) (he : s.Eligible) {f : List Byte} (hf : maxFrame < frameSize f) :
    ∃ t, exec (.send f) s = .next t ∧ t.events = s.events ++ [.done errSize none] := by
  obtain ⟨hl, hp, hq⟩ := hr
  have hx : exec (.send f) s = sendS1 (acceptedAt s (.send .s1) f) := accept_quiet hl hp hq _ _ _
  exact ⟨_, hx.trans (sendS1_oversize hq he hf), rfl⟩

/-- Settles O10: the lengths by the encoder's own rows, and the 257-byte SEND by its form and its size check. -/
theorem commandLengths : Obligations.CommandLengths := by
  refine ⟨rfl, fun f hf => ?_, fun _ => rfl, fun opt m => ?_, fun opt v => ?_, fun _ => length_encode_illegal,
    fun f rest hh hl => ?_⟩
  · show f.length + 1 = _
    rw [(frameOperandWf_iff f).mp hf]; omega
  · rw [encode_getRow]; rfl
  · rw [encode_setRow, List.length_cons, length_counted]; omega
  · have hw : frameOperandWf f = true := (frameOperandWf_iff f).mpr (by rw [hl, hh]; decide)
    refine ⟨congrArg (· + 1) hl, (Encodes.send hw).decode_append rest, fun s hr he => exec_send_oversize hr he ?_⟩
    rw [frameSize, hh]; decide

/-! ### Illegal command bytes -/

theorem exec_illegal {i : Instr} (h : i.illegal = true) (s : State) : exec i s = acceptDone errIllegal s := by
  unfold Instr.illegal at h
  split at h
  case h_16 => cases h
  all_goals rfl

/-- Settles O46: an illegal byte is an illegal row's whole form, and every illegal row ends at the port. -/
theorem illegalCommandsAnswerIllegal : Obligations.IllegalCommandsAnswerIllegal := by
  refine ⟨fun c bs hc => ?_, fun i s hi hl hp => ?_⟩
  · obtain ⟨i, hi, he⟩ := IllegalByte.encodes hc
    exact ⟨i, hi, he.decode_append bs⟩
  · rw [exec_illegal hi, acceptDone_free hl hp, ← hp]

end Sys2Proof.Machine
end

section
/-! O13 and O14: the pseudo-instructions and the environment directives (30_encoding.md R92 to R94). -/

namespace Sys2Proof.Machine

/-! ### Pseudo-instructions -/

theorem assemble_send {bs : List Byte} (h : frameOperandWf bs = true) : assemble (.send bs) = some (0x20 :: bs) := by
  simp [assemble, lineCommand, h, encode]

theorem assemble_send_eq_none (bs : List Byte) : assemble (.send bs) = none ↔ frameOperandWf bs = false := by
  simp [assemble, lineCommand]

theorem assemble_sendTo (dst flags : Byte) (data : List Byte) :
    assemble (.sendTo dst flags data) = (frameEnc dst 0x00 flags data).map (0x20 :: ·) := by
  simp only [assemble, lineCommand, Option.map_map]
  rfl

/-- FRAME_ENC's length byte counts SEND's further bytes. -/
theorem frameOperandWf_frameEnc {dst src flags : Byte} {data f : List Byte} (h : frameEnc dst src flags data = some f) :
    frameOperandWf f = true := by
  unfold frameEnc at h
  split at h
  · cases h
  · rename_i hd
    cases h
    have hlen : (u8 (hdrLen + data.length)).toNat = hdrLen + data.length := u8_toNat (by simp at hd ⊢; omega)
    rw [frameOperandWf, hlen]
    simp; omega

/-- Settles O13: SENDTO by FRAME_ENC, the other pseudo-instructions by their options' rows. -/
theorem pseudoInstructionsExpand : Obligations.PseudoInstructionsExpand := by
  refine ⟨fun dst flags data => ⟨fun h => ?_, fun h => ?_⟩, fun v => ⟨rfl, rfl⟩, rfl, fun b0 bs => ?_⟩
  · have henc : frameEnc dst 0x00 flags data = some (u8 (3 + data.length) :: dst :: 0x00 :: flags :: data) :=
      if_neg (Nat.not_lt.mpr h)
    rw [assemble_sendTo, assemble_send (frameOperandWf_frameEnc henc), henc]
    exact ⟨rfl, rfl⟩
  · have henc : frameEnc dst 0x00 flags data = none := if_pos h
    rw [assemble_sendTo, henc]
    rfl
  · rw [assemble_send_eq_none, frameOperandWf, beq_eq_false_iff_ne]

/-! ### Directives -/

theorem schedule_taken {s : State} (h : s.sched = []) (ms : List Move) : { s.schedule ms with sched := [] } = s := by
  cases s; cases h; rfl

/-- A scheduled move is the step's, where no other comes before it. -/
theorem nextStep_schedule {s : State} (h : s.sched = []) (m : Move) : nextStep (s.schedule [m]) = moveStep m s := by
  have hs : (s.schedule [m]).sched = [m] := congrArg (· ++ [m]) h
  rw [nextStep_move hs, schedule_taken h]

theorem step_schedule {s : State} (hl : s.Legal) (h : s.sched = []) (m : Move) :
    step (s.schedule [m]) = moveStep m s :=
  (step_legal (by exact hl)).trans (nextStep_schedule h m)

/-- The script of a list of byte answers, which draws nothing. -/
theorem scriptOf_bytes (r : RegName) (vs : List Byte) (s : State) :
    scriptOf (vs.map fun v => (r, .byte v)) s = (vs.map (Answer.mk (regId s.params r)), s) := by
  induction vs with
  | nil => rfl
  | cons v vs ih => simp [scriptOf, wordValue, ih]

/-! ### Answers of one register and of the others -/

/-- Answers of other registers at the front of the script do not serve a read. -/
theorem takeAnswer_skip {r : Byte} {as : List Answer} (h : ∀ a ∈ as, a.reg ≠ r) (bs : List Answer) :
    takeAnswer r (as ++ bs) = (takeAnswer r bs).map fun p => (p.1, as ++ p.2) := by
  induction as with
  | nil => simp
  | cons a as ih =>
    rw [List.cons_append, takeAnswer_other (h a (List.mem_cons_self ..)), ih fun b hb => h b (List.mem_cons_of_mem a hb)]
    cases takeAnswer r bs <;> rfl

/-- A script for a register, behind answers of other registers, is what its next reads answer. -/
theorem nextAnswers_script_behind {r : Byte} {as : List Answer} (has : ∀ a ∈ as, a.reg ≠ r) {vs : List Byte} {s : State}
    (h : s.answers = as ++ vs.map (Answer.mk r)) : (nextAnswers r vs.length s).1 = vs := by
  induction vs generalizing s with
  | nil => rfl
  | cons v vs ih =>
    have ht : takeAnswer r s.answers = some (v, as ++ vs.map (Answer.mk r)) := by
      rw [h, takeAnswer_skip has, List.map_cons, takeAnswer_head { reg := r, value := v }]
      rfl
    simp [nextAnswers, nextAnswer_hit ht, ih (s := { s with answers := as ++ vs.map (Answer.mk r) }) rfl]

/-- A script without answers of a register does not serve its reads. -/
theorem takeAnswer_without {q : Byte} {script : List Answer} (h : ∀ a ∈ script, a.reg ≠ q) (as : List Answer) :
    takeAnswer q (as ++ script) = (takeAnswer q as).map fun p => (p.1, p.2 ++ script) := by
  induction as with
  | nil => simpa [takeAnswer] using takeAnswer_skip h []
  | cons a as ih =>
    by_cases ha : a.reg = q
    · subst ha; simp
    · rw [List.cons_append, takeAnswer_other ha, takeAnswer_other ha, ih]
      cases takeAnswer q as <;> rfl

/-- A script without answers of a register leaves that register's next answer, scripted or free, as it was. -/
theorem nextAnswer_without {q : Byte} {script : List Answer} (h : ∀ a ∈ script, a.reg ≠ q) {s t : State}
    (hd : t.draws = s.draws) (ha : t.answers = s.answers ++ script) :
    (nextAnswer q t).1 = (nextAnswer q s).1 ∧ (nextAnswer q t).2.draws = (nextAnswer q s).2.draws ∧
      (nextAnswer q t).2.answers = (nextAnswer q s).2.answers ++ script := by
  have ht := takeAnswer_without h s.answers
  cases hs : takeAnswer q s.answers with
  | none => simp [nextAnswer, ha, ht, hs, hd]
  | some p => simp [nextAnswer, ha, ht, hs, hd]

theorem nextAnswers_without {q : Byte} {script : List Answer} (h : ∀ a ∈ script, a.reg ≠ q) (n : Nat) {s t : State}
    (hd : t.draws = s.draws) (ha : t.answers = s.answers ++ script) : (nextAnswers q n t).1 = (nextAnswers q n s).1 := by
  induction n generalizing s t with
  | zero => rfl
  | succ n ih =>
    obtain ⟨hv, hd', ha'⟩ := nextAnswer_without h hd ha
    rw [nextAnswers, nextAnswers, hv, ih hd' ha']

/-- Settles O14: each directive is one scheduled move; an `@XCVR` line's answers are the script behind those already
there. -/
theorem directivesDriveTheirAgents : Obligations.DirectivesDriveTheirAgents := by
  refine ⟨fun s level hl hq => ⟨_, rfl, step_schedule hl hq _⟩, fun s hq hc => ⟨_, rfl, ?_⟩,
    fun s r vs hl hq has => ?_⟩
  · obtain ⟨hy, he, hp⟩ := (canDispatch_iff s).mp hc
    have hn : nextStep (s.schedule [.dispatch false]) = isrStep { s with upperPull := false } := nextStep_schedule hq _
    exact step_runs_row hn rfl hy he hp
  · have hload : loadLine (.xcvr (vs.map fun v => (r, .byte v))) s =
        some (s.schedule [.answer (vs.map (Answer.mk (regId s.params r)))]) := by
      rw [loadLine, scriptOf_bytes]
    refine ⟨_, _, hload, step_schedule hl hq _, nextAnswers_script_behind has rfl, fun q n hne => ?_⟩
    refine nextAnswers_without (script := vs.map (Answer.mk (regId s.params r))) (fun a ha => ?_) n rfl rfl
    obtain ⟨v, -, rfl⟩ := List.mem_map.mp ha
    exact hne.symm

end Sys2Proof.Machine
end

section
/-! O1 to O6 and O32: the framer's encoder, decoder and metadata readings (40_framer.md), and SEND's refusal of an
oversize frame (41_send_tx.md R115). -/

namespace Sys2Proof.Machine

/-! ### FRAME_ENC -/

theorem frameEnc_eq_none {data : List Byte} (h : maxData < data.length) (dst src flags : Byte) :
    frameEnc dst src flags data = none := if_pos h

theorem frameEnc_eq_some {data : List Byte} (h : data.length ≤ maxData) (dst src flags : Byte) :
    frameEnc dst src flags data = some (u8 (hdrLen + data.length) :: dst :: src :: flags :: data) :=
  if_neg (Nat.not_lt.mpr h)

/-- MAX_DATA keeps the length byte from wrapping. -/
theorem lengthByte_toNat {data : List Byte} (h : data.length ≤ maxData) :
    (u8 (hdrLen + data.length)).toNat = hdrLen + data.length :=
  u8_toNat (by rw [maxData_eq] at h; rw [hdrLen_eq]; omega)

/-- Settles O2: by FRAME_ENC's one test, and the length byte's bound. -/
theorem frameEncoderPacksOrRefuses : Obligations.FrameEncoderPacksOrRefuses := fun dst src flags _ =>
  ⟨fun h => frameEnc_eq_none h dst src flags, fun h => ⟨frameEnc_eq_some h dst src flags, lengthByte_toNat h⟩⟩

/-! ### FRAME_SIZE -/

@[simp] theorem frameSize_cons (l : Byte) (rest : List Byte) : frameSize (l :: rest) = l.toNat + 1 := rfl

/-- Settles O3: a byte is at most 255. -/
theorem frameSizeNeverWraps : Obligations.FrameSizeNeverWraps := by
  intro l rest
  have hl : l.toNat < 256 := l.isLt
  rw [frameSize_cons]
  omega

/-! ### FRAME_DEC -/

theorem frameDec_oversize {l : Byte} (h : l.toNat = 255) (rest : List Byte) : frameDec (l :: rest) = .oversize :=
  if_pos h

theorem frameDec_shortHeader {l : Byte} (h : l.toNat < 3) (rest : List Byte) :
    frameDec (l :: rest) = .shortHeader l.toNat := by
  rw [frameDec, if_neg (by omega), if_pos h]

theorem frameDec_truncated {l : Byte} {rest : List Byte} (h3 : 3 ≤ l.toNat) (hl : l.toNat < 255)
    (hr : rest.length < l.toNat) : frameDec (l :: rest) = .truncated l.toNat (rest.length + 1) := by
  rw [frameDec, if_neg (by omega), if_neg (Nat.not_lt.mpr h3), if_pos (by rw [List.length_cons]; omega),
    List.length_cons]

/-- A whole frame is split into its fields, and what follows it is told apart. -/
theorem frameDec_whole {l : Byte} (a p f : Byte) {data : List Byte} (extra : List Byte) (hl : l.toNat < 255)
    (hd : data.length + 3 = l.toNat) :
    frameDec (l :: a :: p :: f :: (data ++ extra)) =
      if extra = [] then .ok { address := a, phySrc := p, flags := f, data := data }
      else .trailing { address := a, phySrc := p, flags := f, data := data } extra := by
  rw [frameDec, if_neg (by omega), if_neg (Nat.not_lt.mpr (hd ▸ Nat.le_add_left 3 _)),
    if_neg (by simp only [List.length_cons, List.length_append]; omega), ← hd]
  by_cases he : extra = []
  · simp [he]
  · simp [he]

/-- Settles O4: one lemma per verdict. -/
theorem frameDecoderVerdicts : Obligations.FrameDecoderVerdicts :=
  ⟨rfl, fun _ rest => ⟨fun h => frameDec_oversize h rest, fun h => frameDec_shortHeader h rest, fun h3 hl =>
    ⟨frameDec_truncated h3 hl, fun a p f _ extra hr hd => hr ▸ frameDec_whole a p f extra hl hd⟩⟩⟩

/-! ### Well-formed frames -/

/-- A string that is long enough for a length byte holds the three header bytes, the data and what follows. -/
theorem exists_split_of_length {n : Nat} {rest : List Byte} (h3 : 3 ≤ n) (hn : n ≤ rest.length) :
    ∃ a p f data extra, rest = a :: p :: f :: (data ++ extra) ∧ data.length + 3 = n := by
  match rest, hn with
  | a :: p :: f :: tail, hn =>
    refine ⟨a, p, f, tail.take (n - 3), tail.drop (n - 3), by rw [List.take_append_drop], ?_⟩
    simp only [List.length_cons, List.length_take] at hn ⊢
    omega
  | [], hn | [_], hn | [_, _], hn => simp at hn; omega

/-- The shape of a well-formed frame (40_framer.md R103). -/
theorem frameWf_iff (F : List Byte) :
    frameWf F ↔ ∃ l a p f data, F = l :: a :: p :: f :: data ∧ data.length + 3 = l.toNat ∧ l.toNat ≤ maxLength := by
  constructor
  · rintro ⟨hlen, h3, h254⟩
    cases F with
    | nil => cases hlen
    | cons l rest =>
      have hr : rest.length = l.toNat := Nat.succ.inj hlen
      obtain ⟨a, p, f, data, extra, rfl, hd⟩ := exists_split_of_length h3 hr.ge
      exact ⟨l, a, p, f, data ++ extra, rfl, hr, h254⟩
  · rintro ⟨l, a, p, f, data, rfl, hd, h254⟩
    exact ⟨congrArg (· + 1) hd, hd ▸ Nat.le_add_left 3 _, h254⟩

theorem frameDec_ok {l : Byte} (a p f : Byte) {data : List Byte} (hd : data.length + 3 = l.toNat)
    (hl : l.toNat ≤ maxLength) :
    frameDec (l :: a :: p :: f :: data) = .ok { address := a, phySrc := p, flags := f, data := data } := by
  simpa using frameDec_whole a p f [] (Nat.lt_succ_of_le hl) hd

theorem frameWf_of_frameDec_ok {F : List Byte} {fields : Frame} (h : frameDec F = .ok fields) : frameWf F := by
  cases F with
  | nil => cases h
  | cons l rest =>
    have hl : l.toNat ≠ 255 := fun hl => by rw [frameDec_oversize hl] at h; cases h
    have hlt : l.toNat < 255 := Nat.lt_of_le_of_ne (Nat.le_of_lt_succ l.isLt) hl
    have h3 : 3 ≤ l.toNat := Nat.not_lt.mp fun h3 => by rw [frameDec_shortHeader h3] at h; cases h
    have hr : l.toNat ≤ rest.length := Nat.not_lt.mp fun hr => by rw [frameDec_truncated h3 hlt hr] at h; cases h
    obtain ⟨a, p, f, data, extra, rfl, hd⟩ := exists_split_of_length h3 hr
    rw [frameDec_whole a p f extra hlt hd] at h
    split at h
    next he =>
      rw [he, List.append_nil]
      exact (frameWf_iff _).mpr ⟨l, a, p, f, data, rfl, hd, Nat.le_of_lt_succ hlt⟩
    next => cases h

/-- Settles O5: a well-formed frame is a header with its data, and every other verdict rules it out. -/
theorem wellFormedFramesDecodeOk : Obligations.WellFormedFramesDecodeOk := by
  refine fun F => ⟨Iff.rfl, fun h => ?_, fun ⟨_, h⟩ => frameWf_of_frameDec_ok h⟩
  obtain ⟨l, a, p, f, data, rfl, hd, hl⟩ := (frameWf_iff F).mp h
  exact ⟨_, frameDec_ok a p f hd hl⟩

/-! ### The packing laws -/

/-- A length byte that counts its frame is the one FRAME_ENC writes. -/
theorem frameEnc_fields {l : Byte} (a p f : Byte) {data : List Byte} (hd : data.length + 3 = l.toNat)
    (hl : l.toNat ≤ maxLength) : frameEnc a p f data = some (l :: a :: p :: f :: data) := by
  have hlen : data.length ≤ maxData := by rw [maxLength_eq] at hl; rw [maxData_eq]; omega
  have hbyte : u8 (hdrLen + data.length) = l := by
    rw [hdrLen_eq, Nat.add_comm, hd, u8, BitVec.ofNat_toNat, BitVec.setWidth_eq]
  rw [frameEnc_eq_some hlen, hbyte]

/-- Settles O1: FRAME_ENC writes a header that counts its data, and every well-formed frame is one. -/
theorem framePackingLaws : Obligations.FramePackingLaws := by
  refine ⟨fun dst src flags data h => ?_, fun F hF => ?_⟩
  · have hd : data.length + 3 = (u8 (hdrLen + data.length)).toNat := by rw [lengthByte_toNat h, Nat.add_comm]
    have hl : (u8 (hdrLen + data.length)).toNat ≤ maxLength := hd ▸ Nat.add_le_add_right h 3
    exact ⟨_, frameEnc_eq_some h dst src flags, frameDec_ok dst src flags hd hl, congrArg (· + 1) hd.symm,
      (frameWf_iff _).mpr ⟨_, dst, src, flags, data, rfl, hd, hl⟩⟩
  · obtain ⟨l, a, p, f, data, rfl, hd, hl⟩ := (frameWf_iff F).mp hF
    have htake : ((l :: a :: p :: f :: data).take (l.toNat + 1)).drop 4 = data := by simp [← hd]
    exact (congrArg _ htake).trans (frameEnc_fields a p f hd hl)

/-! ### Receive metadata -/

theorem lqiSplit_crc (raw : Byte) : (lqiSplit raw).1 = decide (128 ≤ raw.toNat) :=
  (BitVec.msb_eq_getLsbD_last raw).symm.trans (BitVec.msb_eq_decide raw)

theorem lqiSplit_lqi (raw : Byte) : (lqiSplit raw).2.toNat = raw.toNat % 128 :=
  BitVec.extractLsb'_toNat 0 7 raw

theorem rssiVal_eq (raw : Byte) :
    rssiVal raw = if raw.toNat < 128 then (raw.toNat : Int) else (raw.toNat : Int) - 256 := by
  rw [rssiVal, sext16, BitVec.toInt_signExtend_of_le (by decide), BitVec.toInt_eq_toNat_cond]
  split <;> split <;> omega

/-- Settles O6: each reading from the library's law of its operation. -/
theorem receiveMetadataReadings : Obligations.ReceiveMetadataReadings := fun raw =>
  ⟨lqiSplit_crc raw, lqiSplit_lqi raw, rssiVal_eq raw⟩

/-! ### SEND of an oversize frame -/

/-- The whole end of an oversize SEND: its operands latched, its poll passed at once, no bus record. -/
theorem exec_send_oversize_eq {s : State} (hr : s.Ready) (he : s.Eligible) {f : List Byte}
    (hf : maxFrame < frameSize f) :
    exec (.send f) s = .next { s with
      pollK := 0
      retry := false
      hostIn := f
      events := s.events ++ [.done errSize none] } := by
  obtain ⟨hl, hp, hq⟩ := hr
  have hx : exec (.send f) s = sendS1 (acceptedAt s (.send .s1) f) := accept_quiet hl hp hq _ _ _
  have hend := hx.trans (sendS1_oversize hq he hf)
  rw [hend, ← hp]
  rfl

/-- Settles O32: FRAME_ENC's refusal, and S2's with a frame size of 256. -/
theorem sendRefusesOversize : Obligations.SendRefusesOversize := by
  refine ⟨fun dst src flags _ h => frameEnc_eq_none h dst src flags, fun s f hr he hf =>
    exec_send_oversize_eq hr he ?_⟩
  rw [frameSize, hf]
  decide

end Sys2Proof.Machine
end

section
/-! O28 to O31, O33 and O34: an undisturbed SEND (41_send_tx.md). A frame that fits comes to T3 in one state, and
T3's read-backs decide the rest; an ineligible state never leaves S1's poll. -/

namespace Sys2Proof.Machine

/-! ### SEND up to its read-back -/

theorem exec_send_ready {s : State} (hr : s.Ready) (f : List Byte) :
    exec (.send f) s = sendS1 (acceptedAt s (.send .s1) f) :=
  accept_quiet hr.1 hr.2.1 hr.2.2 _ _ _

/-- The Transmit Buffer after S5 (R118). -/
def stampedTx (s : State) (f : List Byte) : Memory := stampBuf (s.txBuf.writeBytes 0 f) s.nodeAddr

/-- Where SEND of a frame that fits stands before its first read-back (R121): masked, Transmitting, the stamped
frame in `tx_buf` and burst to the FIFO. -/
def atReadBack (s : State) (f : List Byte) : State :=
  { s with
    pos := .send .t3
    state := RadioState.transmitting.code
    irqEn := false
    txBuf := stampedTx s f
    txLen := u8 f.length
    pollK := 0
    retry := false
    hostIn := f
    stamp := s.nodeAddr
    busTrace := s.busTrace ++ [.st s.params.strobeIdle, .st s.params.strobeFlushTx,
      .bwr s.params.regTxFifo ((stampedTx s f).readBytes 0 f.length)] }

/-- S1 to T2 of a frame that fits: the poll passes at once. -/
theorem exec_send_fits {s : State} (hr : s.Ready) (he : s.Eligible) {f : List Byte} (hf : frameOperandWf f = true)
    (hlen : f.length ≤ maxFrame) : exec (.send f) s = sendT3 (atReadBack s f) := by
  have hq : s.sched = [] := hr.2.2
  have hsize : frameSize f = f.length := size_of_operand hf
  rw [exec_send_ready hr, sendS1_quiet (by exact hq),
    sendCheck_eligible (by exact hq) ((eligible_iff _).mpr (by exact he)),
    sendS2_quiet (by exact hq) (by exact hsize.trans_le hlen)]
  simp [atReadBack, stampedTx, acceptedAt, startPoll, State.size, hsize]

/-- The size of a frame that fits does not wrap in `tx_len`, so T2 and T4 burst the whole frame (R120, R122). -/
theorem u8_length_toNat {f : List Byte} (hlen : f.length ≤ maxFrame) : (u8 f.length).toNat = f.length :=
  u8_toNat (Nat.lt_succ_of_le hlen)

/-! ### The three ends of a frame that fits -/

/-- Settles O28: T3 matches. -/
theorem sendCommitsOnFirstWrite : Obligations.SendCommitsOnFirstWrite := by
  intro s f rest hr he hw hf hlen ha
  have hq : (atReadBack s f).sched = [] := hr.2.2
  rw [exec_send_fits hr he hf hlen, sendT3_hit hq ha, sendT5_quiet (by exact hq)]
  simp [atReadBack, stampedTx, stampBuf_readBytes hw, State.size, size_of_operand hf, hr.2.1]

/-- Settles O29: T3 differs, T4 matches. -/
theorem sendRecoversOnRetry : Obligations.SendRecoversOnRetry := by
  intro s f c a₁ rest hr he hw hf hlen hc ha₁ ha₂
  have hq : (atReadBack s f).sched = [] := hr.2.2
  rw [exec_send_fits hr he hf hlen, sendT3_miss hq ha₁ hc, sendT4_hit (by exact hq) ha₂, sendT5_quiet (by exact hq)]
  simp [atReadBack, stampedTx, State.txBytes, u8_length_toNat hlen, stampBuf_readBytes hw, State.size,
    size_of_operand hf, hr.2.1]

/-- Settles O30: T3 and T4 differ. -/
theorem sendFailsAfterRetry : Obligations.SendFailsAfterRetry := by
  intro s f c d a₁ rest hr he hw hf hlen hc hd ha₁ ha₂
  have hq : (atReadBack s f).sched = [] := hr.2.2
  rw [exec_send_fits hr he hf hlen, sendT3_miss hq ha₁ hc, sendT4_miss (by exact hq) ha₂ hd, sendT6_quiet]
  simp [atReadBack, stampedTx, State.txBytes, u8_length_toNat hlen, stampBuf_readBytes hw, hr.2.1]

/-! ### S1's time-out -/

/-- Settles O31: POLL_MAX sleeps in a state that stays ineligible. -/
theorem sendTimesOut : Obligations.SendTimesOut := by
  intro s f hr hn
  have hq : s.sched = [] := hr.2.2
  have he : eligible s = false := eq_false_of_ne_true (mt (eligible_iff s).mp hn)
  rw [exec_send_ready hr, sendS1_quiet (by exact hq), sendCheck_poll (by exact hq) (by exact he)]
  simp [startPoll, acceptedAt, hr.2.1]

/-! ### Whatever the transceiver answers -/

/-- The frame fits exactly when its length byte is not 255. -/
theorem length_le_maxFrame_iff {f : List Byte} (hf : frameOperandWf f = true) :
    f.length ≤ maxFrame ↔ f.headD 0 ≠ 255 := by
  have hl : (f.headD 0).toNat < 256 := (f.headD 0).isLt
  have h255 : f.headD 0 = 255 ↔ (f.headD 0).toNat = 255 := BitVec.toNat_inj.symm
  rw [(frameOperandWf_iff f).mp hf, maxFrame_eq, ne_eq, h255]
  omega

/-- Settles O33: the poll, the size check and T3's two outcomes. -/
theorem sendReturnsOneOfFour : Obligations.SendReturnsOneOfFour := by
  intro s f hr hf
  by_cases he : s.Eligible
  · by_cases hlen : f.length ≤ maxFrame
    · have hne := (length_le_maxFrame_iff hf).mp hlen
      obtain ⟨t, ht, hpos, hend, -⟩ := sendT3_outcomes (atReadBack s f) hr.2.2
      rw [← exec_send_fits hr he hf hlen] at ht
      have hsize : (atReadBack s f).size = (f.headD 0).toNat + 1 :=
        (size_of_operand hf).trans ((frameOperandWf_iff f).mp hf)
      rw [hsize] at hend
      obtain ⟨hev, hstat, hirq, hfault, hstate⟩ | ⟨hev, hstat, hirq, hfault, hretry, hstate⟩ := hend
      · exact ⟨t, _, ht, hev, hpos, .inr (.inr (.inl ⟨he, hne, rfl, hstat, hirq, hstate, hfault⟩))⟩
      · exact ⟨t, _, ht, hev, hpos, .inr (.inr (.inr ⟨he, hne, rfl, hstat, hirq, hstate, hfault, hretry⟩))⟩
    · have h255 : f.headD 0 = 255 := not_not.mp (mt (length_le_maxFrame_iff hf).mpr hlen)
      exact ⟨_, _, sendRefusesOversize.2 s f hr he h255, rfl, hr.2.1, .inr (.inl ⟨he, h255, rfl, rfl⟩)⟩
  · exact ⟨_, _, sendTimesOut s f hr he, rfl, hr.2.1, .inl ⟨he, rfl, rfl, rfl⟩⟩

/-! ### The Transmit Buffer -/

/-- Below the size the Transmit Buffer reads as the stamped frame. -/
theorem stampedTx_read_frame {s : State} (hw : s.txBuf.wf) {f : List Byte} {i : Nat} (hi : i < f.length) :
    (stampedTx s f).read i = (f.set 2 s.nodeAddr).getD i 0 := by
  rw [← stampBuf_readBytes hw f s.nodeAddr, Memory.getD_readBytes _ _ _ _ hi, Nat.zero_add, stampedTx]

theorem stampedTx_read_stamp {s : State} (hw : s.txBuf.wf) (f : List Byte) : (stampedTx s f).read 2 = s.nodeAddr :=
  Memory.read_write_same (Memory.wf_writeBytes hw 0 f) 2 s.nodeAddr

/-- Past the size every byte but byte 2 is as before. -/
theorem stampedTx_read_rest {s : State} (hw : s.txBuf.wf) {f : List Byte} {i : Nat} (hi : f.length ≤ i)
    (h2 : i ≠ 2) : (stampedTx s f).read i = s.txBuf.read i := by
  rw [stampedTx, stampBuf, Memory.read_write_other (Memory.wf_writeBytes hw 0 f) _ h2, Memory.read_writeBytes_zero hw,
    if_neg (Nat.not_lt.mpr hi)]

/-- Settles O34: T3 and what follows leave the Transmit Buffer as S5 filled it. -/
theorem txBufHoldsStampedFrame : Obligations.TxBufHoldsStampedFrame := by
  intro s t f hr he hw hf hlen ht
  rw [exec_send_fits hr he hf hlen] at ht
  obtain ⟨u, hu, -, -, hbuf, hn, hrx, hout, hin, -⟩ := sendT3_outcomes (atReadBack s f) hr.2.2
  obtain rfl : u = t := by simpa [hu] using ht
  have htx : u.txBuf = stampedTx s f := hbuf
  rw [htx]
  exact ⟨fun _ => stampedTx_read_frame hw, stampedTx_read_stamp hw f, fun _ => stampedTx_read_rest hw, hrx, hout,
    hin, hn⟩

end Sys2Proof.Machine
end

section
/-! O17 and O18: the edge detector's step, alone and in sequence (42_fsm_isr.md section 1). -/

namespace Sys2Proof.Machine

/-- Both edges are sensed (R133, D9). -/
theorem edgeLatches_eq (level : Bool) (s : State) :
    edgeLatches level s = (level != s.pinPrev && (s.irqEn || s.params.latchWhileMasked)) := by
  cases level <;> simp [edgeLatches, EdgeSense.takes]

/-- A move of XCVR's pin is EDGE's step (R133). -/
theorem step_pin {s : State} {level : Bool} {rest : List Move} (hl : s.Legal) (hq : s.sched = .pin level :: rest) :
    step s = .next (pinChange level (withSched rest s)) :=
  (step_legal hl).trans (nextStep_move hq)

/-- A level that the pin already has is no edge. -/
theorem pinChange_same {s : State} {level : Bool} (hprev : s.pinPrev = level) (hpin : s.evtPin = level) :
    pinChange level s = s := by
  have hno : edgeLatches level s = false := by simp [edgeLatches_eq, hprev]
  rw [pinChange, hno, Bool.or_false]
  cases s
  cases hprev
  cases hpin
  rfl

/-- Settles O17: EDGE's step with both edges sensed. -/
theorem edgeDetectorLatches : Obligations.EdgeDetectorLatches := by
  intro s level rest hl hq
  refine ⟨?_, ?_⟩
  · rw [step_pin hl hq, pinChange, edgeLatches_eq]
    rfl
  · rintro hseen rfl
    rw [step_pin hl hq]
    exact congrArg _ (pinChange_same (s := withSched rest s) hseen rfl)

/-- An edge now or a later one: some level differs from the one before them all. -/
theorem edge_or_later (prev level : Bool) (levels : List Bool) :
    (level != prev || levels.any fun b => b != level) = (level :: levels).any fun b => b != prev := by
  by_cases h : level = prev
  · subst h; rfl
  · have hne : (level != prev) = true := bne_iff_ne.mpr h
    rw [List.any_cons, hne, Bool.true_or, Bool.true_or]

/-- Settles O18: by induction on the levels, each one EDGE's step (R135). -/
theorem edgesCoalesce : Obligations.EdgesCoalesce := by
  intro s levels
  induction levels generalizing s with
  | nil =>
    rintro rest - - hq
    refine ⟨s, rfl, ?_⟩
    rw [List.any_nil, Bool.or_false]
    cases hq
    rfl
  | cons level levels ih =>
    intro rest hl he hq
    obtain ⟨t, hrun, ht⟩ := ih (pinChange level (withSched (levels.map Move.pin ++ rest) s)) rest hl he rfl
    have hlatch : edgeLatches level (withSched (levels.map Move.pin ++ rest) s) = (level != s.pinPrev) := by
      rw [edgeLatches_eq]
      simp [withSched, he]
    refine ⟨t, (run_succ (step_pin hl hq) levels.length).trans hrun, ?_⟩
    rw [ht, pinChange_irqPend, hlatch, Bool.or_assoc, ← edge_or_later, List.getLastD_cons, List.getLastD_cons]
    rfl

end Sys2Proof.Machine
end

section
/-! O19, O20 and O24: the row that each key runs, and where it is refused or a fault (42_fsm_isr.md section 2). -/

namespace Sys2Proof.Machine

/-! ### Keys -/

theorem decodeKey_inj {k k' : BitVec 4} (h : decodeKey k = decodeKey k') : k = k' := by
  have he : [k.setWidth 8] = [k'.setWidth 8] := by rw [← encode_decodeKey, ← encode_decodeKey, h]
  have hw : k.setWidth 8 = k'.setWidth 8 := List.singleton_inj.mp he
  bv_omega

/-- A key holds its state code and its level (30_encoding.md R90). -/
theorem dispatchKey_of_decodeKey {s : State} {code : BitVec 3} {level : Bool}
    (h : decodeKey (dispatchKey s) = decodeKey (code ++ BitVec.ofBool level)) :
    s.state = code ∧ s.evtPin = level := by
  have hk : s.state ++ BitVec.ofBool s.evtPin = code ++ BitVec.ofBool level := decodeKey_inj h
  generalize s.state = x at *
  generalize s.evtPin = b at *
  clear h
  revert x b code level
  decide

/-- No key of the six states is a reserved one (R145). -/
theorem decodeKey_legal {s : State} (hl : s.Legal) (low : BitVec 2) :
    decodeKey (dispatchKey s) ≠ .dispatchInvalid low := by
  intro h
  have hk : (dispatchKey s).toNat = (3#2 ++ low).toNat :=
    congrArg BitVec.toNat (decodeKey_inj (h.trans (decodeKey_invalid low).symm))
  have hlow : 12 ≤ (3#2 ++ low).toNat := by clear hk h; revert low; decide
  have hlevel : s.evtPin.toNat ≤ 1 := Bool.toNat_le _
  rw [dispatchKey_toNat] at hk
  simp only [State.Legal, numStates] at hl
  omega

/-! ### Rows -/

/-- Every row but DISPATCH_INVALID runs its action where its key's dispatch is taken (R137 to R144). -/
theorem exec_key_row {i : Instr} (h : i.format = .key) (hi : ∀ low, i ≠ .dispatchInvalid low) :
    ∃ k row, i = decodeKey k ∧ RunsRow i row ∧ ∀ s, exec i s = takeDispatch k row s := by
  cases i with
  | dispatchUnhandled low => exact ⟨_, _, by revert low; decide, .unhandled low, fun _ => rfl⟩
  | dispatchRxRearm => exact ⟨_, _, rfl, .rxRearm, fun _ => rfl⟩
  | dispatchRxStart => exact ⟨_, _, rfl, .rxStart, fun _ => rfl⟩
  | dispatchRxComplete => exact ⟨_, _, rfl, .rxComplete, fun _ => rfl⟩
  | dispatchMissedEdge => exact ⟨_, _, rfl, .missedEdge, fun _ => rfl⟩
  | dispatchTxDone => exact ⟨_, _, rfl, .txDone, fun _ => rfl⟩
  | dispatchTxBusy => exact ⟨_, _, rfl, .txBusy, fun _ => rfl⟩
  | dispatchUnhandledPowerDown l => exact ⟨_, _, by revert l; decide, .unhandledPowerDown l, fun _ => rfl⟩
  | dispatchInvalid low => exact absurd rfl (hi low)
  | _ => cases h

/-- In each of the six states an enabled, pending dispatch takes the row of its key. -/
theorem exec_dispatch_ready {s : State} (hl : s.Legal) (hr : dispatchReady s = true) :
    ∃ row, RunsRow (decodeKey (dispatchKey s)) row ∧
      exec (decodeKey (dispatchKey s)) s = .next (row (dispatchEntry s)) := by
  obtain ⟨k, row, hk, hrow, he⟩ := exec_key_row (decodeKey_format _) (decodeKey_legal hl)
  exact ⟨row, hrow, (he s).trans (takeDispatch_ready hl hr (decodeKey_inj hk) row)⟩

theorem takeDispatch_refused {s : State} {k : BitVec 4} (hl : s.Legal)
    (h : s.irqEn = false ∨ s.irqPend = false ∨ dispatchKey s ≠ k) (row : State → State) :
    takeDispatch k row s = .refused .dispatchNotTaken := by
  rw [takeDispatch, checkState_legal hl, if_neg]
  rintro ⟨hr, hk⟩
  obtain ⟨he, hp⟩ := (dispatchReady_iff s).mp hr
  simp [he, hp, hk] at h

/-- Settles O24: another key has another encoding. -/
theorem dispatchRefusedWhenNotTaken : Obligations.DispatchRefusedWhenNotTaken := by
  refine ⟨fun i s h hi hl hn => ?_, fun _ _ => rfl⟩
  obtain ⟨k, row, rfl, -, he⟩ := exec_key_row h hi
  rw [he, takeDispatch_refused hl]
  rw [encode_decodeKey] at hn
  exact hn.imp_right (Or.imp_right (mt fun hk => by rw [hk]))

/-- The dispatch of a given state and level, as the model's key for it. -/
theorem takeDispatch_row {s : State} {r : RadioState} {level : Bool} (he : s.irqEn = true) (hp : s.irqPend = true)
    (hs : s.state = r.code) (hb : s.evtPin = level) (row : State → State) :
    takeDispatch (r.code ++ BitVec.ofBool level) row s = .next (row (dispatchEntry s)) :=
  takeDispatch_ready (hs ▸ r.code_legal) ((dispatchReady_iff s).mpr ⟨he, hp⟩) (by rw [dispatchKey, hs, hb]) row

/-- The keys of Unknown and Idle are the two low bits that their one row gives. -/
theorem dispatchKey_low {s : State} (h : s.state = RadioState.unknown.code ∨ s.state = RadioState.idle.code) :
    dispatchKey s = ((dispatchKey s).setWidth 2).setWidth 4 := by
  unfold dispatchKey
  generalize s.evtPin = b
  rcases h with h | h <;> (rw [h]; revert b; decide)

/-- The keys of PowerDown. -/
theorem dispatchKey_powerDown {s : State} (h : s.state = RadioState.powerDown.code) :
    dispatchKey s = 0xA ||| (BitVec.ofBool s.evtPin).setWidth 4 := by
  unfold dispatchKey
  generalize s.evtPin = b
  rw [h]
  revert b
  decide

/-- Settles O19: each row's key is its state's code with its level, and the row is taken. -/
theorem dispatchRowsAct : Obligations.DispatchRowsAct := by
  intro s he hp
  have hr : dispatchReady s = true := (dispatchReady_iff s).mpr ⟨he, hp⟩
  refine ⟨fun hs hb => takeDispatch_row he hp hs hb rowRxStart, fun hs hb => takeDispatch_row he hp hs hb rowRxRearm,
    fun hs hb => takeDispatch_row he hp hs hb rowMissedEdge, fun hs hb => takeDispatch_row he hp hs hb rowTxDone,
    fun hs hb => takeDispatch_row he hp hs hb rowTxBusy, fun hs => ?_, fun hs => ?_⟩
  · have hl : s.Legal := by
      rcases hs with hs | hs <;> (rw [State.Legal, hs]; exact RadioState.code_legal _)
    exact takeDispatch_ready hl hr (dispatchKey_low hs) rowUnhandled
  · exact takeDispatch_ready (hs ▸ RadioState.code_legal _) hr (dispatchKey_powerDown hs) rowUnhandled

/-- Every row leaves one of the six states. -/
theorem RunsRow.legal {i : Instr} {row : State → State} (h : RunsRow i row) {s : State} (hl : s.Legal) :
    (row (dispatchEntry s)).Legal := by
  rcases h.state s with hs | hs | hs
  · rw [State.Legal, hs]; exact hl
  · rw [State.Legal, hs]; exact RadioState.code_legal _
  · rw [State.Legal, hs]; exact RadioState.code_legal _

theorem exec_key_reserved {i : Instr} {s : State} (h : i.format = .key) (hs : 6 ≤ s.state.toNat) :
    exec i s = .fault .invalidState :=
  (checkState_exec_key h s).symm.trans (checkState_reserved hs _)

theorem exec_cmd_reserved {i : Instr} {s : State} (h : i.format = .cmd) (hs : 6 ≤ s.state.toNat) :
    exec i s = .fault .invalidState := by
  rcases exec_cmd_kinds h with ⟨p, b, -, he⟩ | ⟨-, he⟩
  · exact (he s).trans (checkState_reserved hs _)
  · exact (he s).trans (checkState_reserved hs _)

/-- Settles O20: every command, every row and every step looks at the register first; in the six states the row of
the key is taken. -/
theorem reservedStateFaults : Obligations.ReservedStateFaults := by
  refine ⟨fun s => step_reserved, fun i s hs h => ?_, fun s hl hr => ?_⟩
  · rcases h with h | h
    · exact exec_cmd_reserved h hs
    · exact exec_key_reserved h hs
  · obtain ⟨row, hrow, he⟩ := exec_dispatch_ready hl hr
    exact ⟨_, he, hrow.legal hl⟩

end Sys2Proof.Machine
end

section
/-! O23 and O56: whose turn each step is, and the changes of the state register (42_fsm_isr.md section 4). -/

namespace Sys2Proof.Machine

/-! ### Whose turn a step is -/

theorem withSched_self {s : State} {q : List Move} (h : s.sched = q) : withSched q s = s := by
  subst h; rfl

/-- The moves left after a step: a last `stop` stays (log 19). -/
def movesAfter (s : State) : List Move := if s.sched = [.stop] then s.sched else s.sched.tail

theorem movesAfter_nil {s : State} (h : s.sched = []) : movesAfter s = [] := by simp [movesAfter, h]

theorem movesAfter_stopped {s : State} (h : s.sched = [.stop]) : movesAfter s = [.stop] := by simp [movesAfter, h]

theorem movesAfter_move {s : State} {m : Move} {rest : List Move} (h : s.sched = m :: rest)
    (hm : m ≠ .stop ∨ rest ≠ []) : movesAfter s = rest := by
  have hne : ¬ (m = .stop ∧ rest = []) := not_and_or.mpr hm
  simp [movesAfter, h, hne]

/-- No command and no row writes the schedule. -/
theorem exec_sched {i : Instr} {s t : State} (h : exec i s = .next t) : t.sched = s.sched := by
  obtain ⟨-, -, -, -, -, -, -, -, -, -, hq, -⟩ := writersOfEachField i s t h
  exact hq

theorem taskStep_sched {s t : State} (h : taskStep s = .next t) : t.sched = s.sched := by
  rcases taskStep_next h with ⟨-, hr⟩ | ⟨-, rfl⟩ | ⟨-, i, rest, -, hx⟩
  · exact (resumeOp_frame hr).inputs.2.2.2.1
  · rfl
  · exact exec_sched (s := { s with port := rest }) hx

theorem isrStep_sched {s t : State} (h : isrStep s = .next t) : t.sched = s.sched := by
  rcases isrStep_next h with rfl | ⟨-, row, hr, rfl⟩
  · rfl
  · exact (hr.frame s).inputs.2.2.2.1

/-- At ISR's turn the step is ISR's. -/
theorem nextStep_isrTurn {s : State} (h : s.IsrTurn) :
    ∃ pull, nextStep s = isrStep { withSched (movesAfter s) s with upperPull := pull } := by
  rcases h with ⟨pull, rest, hq⟩ | ⟨hq, hw, hr⟩ | ⟨hq, hy⟩
  · exact ⟨pull, by rw [movesAfter_move hq (.inl nofun), nextStep_move hq]; rfl⟩
  · refine ⟨s.upperPull, ?_⟩
    rw [movesAfter_nil hq, withSched_self hq, nextStep_waiting hq hw hr]
  · refine ⟨s.upperPull, ?_⟩
    rw [movesAfter_stopped hq, withSched_self hq, nextStep_stopped hq, stoppedStep_yield hy]

/-- A step that is not ISR's is TASK's, another agent's, or reset. -/
theorem nextStep_other {s t : State} (hn : ¬ s.IsrTurn) (h : nextStep s = .next t) :
    (∃ q u, taskStep (withSched q s) = .next u ∧ t = withSched (movesAfter s) u) ∨
    EnvStep (withSched (movesAfter s) s) t ∨
    ∃ tx rx rest, s.sched = .reset tx rx :: rest ∧ t = resetBlock tx rx (withSched rest s) := by
  have htask : ∀ {q}, movesAfter s = q → taskStep (withSched q s) = .next t →
      ∃ q u, taskStep (withSched q s) = .next u ∧ t = withSched (movesAfter s) u := fun hq ht =>
    ⟨_, t, ht, (withSched_self ((taskStep_sched ht).trans hq.symm)).symm⟩
  cases hs : s.sched with
  | nil =>
    have hw : ¬ (taskWaits s && dispatchReady s) = true := fun hw => by
      rw [Bool.and_eq_true] at hw
      exact hn (.inr (.inl ⟨hs, hw⟩))
    rw [nextStep_rest hs, restStep, if_neg hw] at h
    exact .inl (htask (movesAfter_nil hs) (by rwa [withSched_self hs]))
  | cons m rest =>
    by_cases hstop : m = .stop
    · subst hstop
      cases rest with
      | nil =>
        have hy : s.pos.isYield = false := eq_false_of_ne_true fun hy => hn (.inr (.inr ⟨hs, hy⟩))
        have hp : s.pos ≠ .none := fun hp => by rw [hp] at hy; cases hy
        rw [nextStep_stopped hs, stoppedStep_block hy] at h
        exact .inl (htask (movesAfter_stopped hs) (by rwa [withSched_self hs, taskStep, if_neg hp]))
      | cons m' rest =>
        rw [nextStep_stop hs] at h
        cases h
        exact .inr (.inl (movesAfter_move hs (.inr nofun) ▸ .skip))
    · have hq := movesAfter_move hs (.inl hstop)
      rw [nextStep_move hs] at h
      rw [hq]
      cases m with
      | task => exact hq ▸ .inl (htask hq h)
      | run => exact .inl ⟨[], undisturbed_next h⟩
      | pin level => cases h; exact .inr (.inl (.pin level))
      | dispatch pull => exact absurd (.inl ⟨pull, rest, hs⟩) hn
      | stop => exact absurd rfl hstop
      | present bytes =>
        simp only [moveStep, presentBytes] at h
        split at h <;> cases h
        exact .inr (.inl (.present bytes))
      | answer script => cases h; exact .inr (.inl (.answer script))
      | reset tx rx => cases h; exact .inr (.inr ⟨tx, rx, rest, rfl, rfl⟩)

/-! ### What a dispatch does to the register -/

/-- The three rows that change `state` (R149). -/
def DispatchChange (s t : State) : Prop :=
  (s.state = RadioState.receiving.code ∧ s.evtPin = true ∧ t.state = RadioState.receivingBusy.code) ∨
  (s.state = RadioState.receivingBusy.code ∧ s.evtPin = false ∧ t.state = RadioState.receiving.code) ∨
  (s.state = RadioState.transmitting.code ∧ s.evtPin = false ∧ t.state = RadioState.receiving.code)

/-- The row of a state's key changes the register only as R149 says. -/
theorem RunsRow.change {s : State} {row : State → State} (h : RunsRow (decodeKey (dispatchKey s)) row) :
    (row (dispatchEntry s)).state = s.state ∨ DispatchChange s (row (dispatchEntry s)) := by
  generalize hi : decodeKey (dispatchKey s) = i at h
  cases h with
  | unhandled | unhandledPowerDown | rxRearm | missedEdge | txBusy => exact .inl rfl
  | rxStart =>
    obtain ⟨hs, hb⟩ := dispatchKey_of_decodeKey (code := RadioState.receiving.code) (level := true) hi
    exact .inr (.inl ⟨hs, hb, rfl⟩)
  | rxComplete =>
    obtain ⟨hs, hb⟩ := dispatchKey_of_decodeKey (code := RadioState.receivingBusy.code) (level := false) hi
    exact .inr (.inr (.inl ⟨hs, hb, rowRxComplete_state _⟩))
  | txDone =>
    obtain ⟨hs, hb⟩ := dispatchKey_of_decodeKey (code := RadioState.transmitting.code) (level := false) hi
    exact .inr (.inr (.inr ⟨hs, hb, rfl⟩))

theorem isrStep_change {s t : State} (h : isrStep s = .next t) : t.state = s.state ∨ DispatchChange s t := by
  rcases isrStep_next h with rfl | ⟨-, row, hr, rfl⟩
  · exact .inl rfl
  · exact hr.change

/-- Settles O23: the row of the key, which holds the state and the level. -/
theorem dispatchStateChanges : Obligations.DispatchStateChanges := by
  intro s t hturn h
  obtain ⟨pull, hn⟩ := nextStep_isrTurn hturn
  have hrow := isrStep_change (hn.symm.trans (step_next h).2)
  exact hrow

/-! ### What an operation does to the register -/

/-- The writes of `state` outside a dispatch and reset (R150): SEND's from the states that its race leaves, and
INIT's. -/
def CommandChange (op : Op) (s t : State) : Prop :=
  (op = .send ∧ Raced s ∧ t.state = RadioState.transmitting.code) ∨
  (op = .init ∧ (t.state = RadioState.idle.code ∨
    (s.params.initArmsRx = true ∧ t.state = RadioState.receiving.code)))

/-- `state` stays, or an operation writes it. -/
def CommandMove (op : Op) (s t : State) : Prop := t.state = s.state ∨ CommandChange op s t

theorem CommandMove.trans {op : Op} {s u t : State} (h : CommandMove op s u) (hp : u.params = s.params)
    (h' : CommandMove op u t) : CommandMove op s t := by
  rcases h' with ht | ⟨ho, hr, ht⟩ | ⟨ho, ht⟩
  · rw [CommandMove, CommandChange, ht]
    exact h
  · rcases h with hu | ⟨-, hs, -⟩ | ⟨hi, -⟩
    · rw [Raced, State.Eligible, hu] at hr
      exact .inr (.inl ⟨ho, hr, ht⟩)
    · exact .inr (.inl ⟨ho, hs, ht⟩)
    · cases ho.symm.trans hi
  · exact .inr (.inr ⟨ho, hp ▸ ht⟩)

theorem advanceInit_move (s : State) (l : InitStep) : CommandMove .init s (advanceInit s l) := by
  cases l with
  | i5 => exact .inr (.inr ⟨rfl, .inl rfl⟩)
  | i6 =>
    by_cases ha : s.params.initArmsRx = true
    · exact .inr (.inr ⟨rfl, .inr ⟨ha, if_pos ha⟩⟩)
    · exact .inl (if_neg ha)
  | i1 | i2 | i3 | i4 | i7 | i7done => exact .inl rfl

theorem advanceSend_move {s u : State} {l : SendStep} (hl : LabelFacts s (.send l)) (h : advanceSend s l = some u) :
    CommandMove .send s u := by
  cases l with
  | s3mask => cases h; exact .inr (.inl ⟨rfl, hl.2.1, rfl⟩)
  | t5 => cases h; exact .inl hl.2.1.2.symm
  | s1check =>
    cases h
    repeat' split
    all_goals exact .inl rfl
  | s2 => cases h; split <;> exact .inl rfl
  | s5 => simp only [advanceSend] at h; split at h <;> cases h; exact .inl rfl
  | t3 | t4 => cases h; exact .inl (by simp [readBack, rewritten])
  | s1 | s1sleep | s3 | s4 | t1 | t2 | t5done | t6 => cases h; exact .inl rfl

/-- A labelled step from a state that keeps the invariant: SEND's S3 finds one of its raced states, and its T5 finds
Transmitting. -/
theorem advance_move {s u : State} (h : MachineInv s) (ha : advance s = some u) : CommandMove s.pos.op s u := by
  have hf := advance_frame ha
  have hl := h.label
  cases hp : s.pos with
  | init l => rw [advance_init hp] at ha; cases ha; exact advanceInit_move s l
  | send l => rw [hp] at hl; exact advanceSend_move hl (advance_send hp ▸ ha)
  | none | receive l | get opt | set l => rw [hp] at hf; exact .inl (hf.radio nofun nofun).2.2

/-- What a labelled step of an operation keeps of the state it started from. -/
structure CommandTrail (op : Op) (s u : State) : Prop where
  place : u.pos = .none ∨ u.pos.op = op
  inv : MachineInv u
  params : u.params = s.params
  move : CommandMove op s u

theorem CommandTrail.advance {op : Op} {s u v : State} (h : CommandTrail op s u) (hp : u.pos ≠ .none)
    (ha : advance u = some v) : CommandTrail op s v := by
  obtain rfl : u.pos.op = op := h.place.resolve_left hp
  exact ⟨advance_op ha, advance_keeps h.inv ha, (advance_frame ha).fixed.1.trans h.params,
    h.move.trans h.params (advance_move h.inv ha)⟩

theorem resumeOp_move {s t : State} (h : MachineInv s) (hr : resumeOp s = .next t) : CommandMove s.pos.op s t :=
  (resumeOp_keeps (fun _ _ => CommandTrail.advance) ⟨.inr rfl, h, rfl, .inl rfl⟩ hr).move

theorem goOn_move {s t : State} (h : MachineInv s) (hg : goOn s = .next t) : CommandMove s.pos.op s t :=
  (goOn_keeps (fun _ _ => CommandTrail.advance) ⟨.inr rfl, h, rfl, .inl rfl⟩ hg).move

/-- TASK's step: what its operation in progress writes, or the command that it accepts from the port. -/
theorem taskStep_move {s t : State} (h : MachineInv s) (ht : taskStep s = .next t) :
    t.state = s.state ∨ ∃ op, CommandChange op s t ∧
      (s.pos.op = op ∨ (s.pos = .none ∧ ∃ i p b rest, Enters i p b ∧ p.op = op ∧ portCommand s = some (i, rest))) := by
  rcases taskStep_next ht with ⟨-, hr⟩ | ⟨-, rfl⟩ | ⟨hp, i, rest, hc, hx⟩
  · exact (resumeOp_move h hr).imp_right fun hm => ⟨_, hm, .inl rfl⟩
  · exact .inl rfl
  · have hk := portCommand_format hc
    rcases exec_next hx with ⟨p, b, hi, -, -, hg⟩ | ⟨-, -, -, rfl⟩ | ⟨row, hi, -⟩ | ⟨r, -, rfl⟩
    · have hm : CommandMove p.op s t := goOn_move (h.environment.acceptedAt hi) hg
      exact hm.imp_right fun hm => ⟨_, hm, .inr ⟨hp, i, p, b, rest, hi, rfl, hc⟩⟩
    · exact .inl rfl
    · rw [hi.format] at hk; cases hk
    · exact .inl rfl

/-- Settles O56: ISR's step by R149's rows, TASK's by its operation's writes, and the others' leave `state` to
reset. -/
theorem onlyTabulatedTransitions : Obligations.OnlyTabulatedTransitions := by
  intro s t h hs
  by_cases hturn : s.IsrTurn
  · exact (dispatchStateChanges s t hturn hs).imp_right fun hd => .inl ⟨hturn, hd⟩
  rcases nextStep_other hturn (step_next hs).2 with ⟨q, u, hu, rfl⟩ | he | ⟨tx, rx, rest, hq, rfl⟩
  · rcases taskStep_move (s := withSched q s) h.environment hu with hst | ⟨op, ⟨rfl, hr, ht⟩ | ⟨rfl, ht⟩, hcmd⟩
    · exact .inl hst
    · refine .inr (.inr (.inl ⟨hcmd.imp_right ?_, hr, ht⟩))
      rintro ⟨hp, i, p, b, rest, hi, hop, hc⟩
      exact ⟨hp, b, rest, hi.eq_send hop ▸ hc⟩
    · refine .inr (.inr (.inr (.inl ⟨hcmd.imp_right ?_, ht⟩)))
      rintro ⟨hp, i, p, b, rest, hi, hop, hc⟩
      exact ⟨hp, rest, hi.eq_init hop ▸ hc⟩
  · exact .inl (by cases he <;> rfl)
  · exact .inr (.inr (.inr (.inr ⟨tx, rx, rest, hq, rfl⟩)))

end Sys2Proof.Machine
end

section
/-! Progress: from a state that keeps the invariant no step stops (60_exceptions.md R194). -/

namespace Sys2Proof.Machine

/-! ### TASK -/

/-- Of all labelled steps only S5's can fault, and the checked size rules that out (20_memory.md R47). -/
theorem advance_total {s : State} (h : MachineInv s) : ∃ u, advance s = some u := by
  cases hp : s.pos with
  | none => exact ⟨_, advance_none hp⟩
  | init l => exact ⟨_, advance_init hp⟩
  | receive l => exact ⟨_, advance_receive hp⟩
  | get opt => exact ⟨_, advance_get hp⟩
  | set l => exact ⟨_, advance_set hp⟩
  | send l =>
    rw [advance_send hp]
    cases l with
    | s5 =>
      have hs : s.size ≤ maxFrame := h.sizeOk (by rw [hp]; rfl)
      exact ⟨_, if_neg (Nat.not_lt.mpr hs)⟩
    | s1 | s1check | s1sleep | s2 | s3 | s3mask | s4 | t1 | t2 | t3 | t4 | t5 | t5done | t6 => exact ⟨_, rfl⟩

theorem resumeOp_progress {s : State} (h : MachineInv s) : ∃ t, resumeOp s = .next t := by
  induction hn : stepsLeft s using Nat.strong_induction_on generalizing s with
  | _ n ih =>
    by_cases hp : s.pos = .none
    · exact ⟨s, resumeOp_none hp⟩
    · obtain ⟨u, ha⟩ := advance_total h
      rw [resumeOp_eq hp, ha, goOnOr]
      by_cases hq : u.sched = []
      · rw [goOn_quiet hq]
        exact ih _ (hn ▸ stepsLeft_advance hp ha) (advance_keeps h ha) rfl
      · exact ⟨u, goOn_pending hq⟩

theorem goOn_progress {s : State} (h : MachineInv s) : ∃ t, goOn s = .next t := by
  by_cases hq : s.sched = []
  · rw [goOn_quiet hq]; exact resumeOp_progress h
  · exact ⟨s, goOn_pending hq⟩

theorem exec_cmd_progress {i : Instr} {s : State} (hk : i.format = .cmd) (h : MachineInv s) (hp : s.pos = .none) :
    ∃ t, exec i s = .next t := by
  rcases exec_cmd_kinds hk with ⟨p, b, hi, he⟩ | ⟨-, he⟩
  · rw [he, accept_eq_goOn h.legal hp]
    exact goOn_progress (h.acceptedAt hi)
  · exact ⟨_, (he s).trans (acceptDone_free h.legal hp _)⟩

theorem taskStep_progress {s : State} (h : MachineInv s) : ∃ t, taskStep s = .next t := by
  by_cases hp : s.pos = .none
  · rw [taskStep, if_pos hp]
    cases hc : portCommand s with
    | none => exact ⟨s, rfl⟩
    | some c => exact exec_cmd_progress (portCommand_format hc) h.environment hp
  · rw [taskStep, if_neg hp]
    exact resumeOp_progress h

/-! ### ISR -/

/-- An ISR that can act takes the row of the key. -/
theorem isrStep_row {s : State} (hl : s.Legal) (hc : canDispatch s = true) :
    ∃ row, RunsRow (decodeKey (dispatchKey s)) row ∧ isrStep s = .next (row (dispatchEntry s)) := by
  obtain ⟨hy, he, hp⟩ := (canDispatch_iff s).mp hc
  rw [isrStep_taken hy he hp]
  exact exec_dispatch_ready hl ((dispatchReady_iff s).mpr ⟨he, hp⟩)

theorem isrStep_progress {s : State} (hl : s.Legal) : ∃ t, isrStep s = .next t := by
  by_cases hc : canDispatch s = true
  · obtain ⟨row, -, hr⟩ := isrStep_row hl hc
    exact ⟨_, hr⟩
  · exact ⟨s, if_neg hc⟩

/-! ### Steps -/

theorem moveStep_progress {m : Move} {s : State} (h : MachineInv s) (hm : ∀ bytes, m = .present bytes → s.pos = .none) :
    ∃ t, moveStep m s = .next t := by
  cases m with
  | task => exact taskStep_progress h
  | run =>
    obtain ⟨t, ht⟩ := taskStep_progress (s := { s with sched := [] }) h.environment
    exact ⟨{ t with sched := s.sched }, by simp only [moveStep, undisturbed, ht]⟩
  | pin level => exact ⟨_, rfl⟩
  | dispatch pull => exact isrStep_progress (s := { s with upperPull := pull }) h.legal
  | stop =>
    simp only [moveStep]
    split
    · rw [stoppedStep]
      split
      · exact isrStep_progress (s := { s with sched := [.stop] }) h.legal
      · exact resumeOp_progress (s := { s with sched := [.stop] }) h.environment
    · exact ⟨s, rfl⟩
  | present bytes => exact ⟨_, if_pos (hm bytes rfl)⟩
  | answer script => exact ⟨_, rfl⟩
  | reset tx rx => exact ⟨_, rfl⟩

/-- A step never stops, where TASK presents no command while one is in progress (44_adapter.md R165). -/
theorem step_progress {s : State} (h : MachineInv s)
    (hport : ∀ bytes rest, s.sched = .present bytes :: rest → s.pos = .none) : ∃ t, step s = .next t := by
  rw [step_legal h.legal]
  cases hs : s.sched with
  | nil =>
    rw [nextStep_rest hs, restStep]
    split
    · exact isrStep_progress h.legal
    · exact taskStep_progress h
  | cons m rest =>
    rw [nextStep_move hs]
    exact moveStep_progress h.environment fun bytes hb => hport bytes rest (hb ▸ hs)

end Sys2Proof.Machine
end

section
/-! O52: the dispatch is weakly fair, and TASK is not assumed fair (42_fsm_isr.md R136, 70_reset_and_hazards.md R226;
log 19). -/

namespace Sys2Proof.Machine

/-! ### What a step leaves of the schedule, and of TASK's operation -/

theorem step_sched {s t : State} (h : step s = .next t) : t.sched = movesAfter s := by
  have hn := (step_next h).2
  by_cases hturn : s.IsrTurn
  · obtain ⟨pull, hi⟩ := nextStep_isrTurn hturn
    exact isrStep_sched (hi.symm.trans hn)
  · rcases nextStep_other hturn hn with ⟨q, u, -, rfl⟩ | he | ⟨tx, rx, rest, hq, rfl⟩
    · rfl
    · cases he <;> rfl
    · exact (movesAfter_move hq (.inl nofun)).symm

theorem isrStep_leaves_task {s t : State} (h : isrStep s = .next t) : t.pos = s.pos ∧ t.port = s.port := by
  rcases isrStep_next h with rfl | ⟨-, row, hr, rfl⟩
  · exact ⟨rfl, rfl⟩
  · have hf := hr.frame s
    exact ⟨hf.task.1, hf.inputs.2.2.1⟩

theorem isrStep_legal {s t : State} (hl : s.Legal) (h : isrStep s = .next t) : t.Legal := by
  rcases isrStep_next h with rfl | ⟨-, row, hr, rfl⟩
  · exact hl
  · exact hr.legal hl

/-- A move of another agent than TASK and reset, with more moves to come, leaves TASK's operation alone. -/
theorem step_leaves_task {s t : State} {m : Move} {rest : List Move} (hq : s.sched = m :: rest) (hrest : rest ≠ [])
    (htask : m ≠ .task) (hrun : m ≠ .run) (hpresent : ∀ bytes, m ≠ .present bytes) (hreset : ∀ tx rx, m ≠ .reset tx rx)
    (h : step s = .next t) : t.pos = s.pos ∧ t.port = s.port := by
  have hn := (step_next h).2
  rw [nextStep_move hq] at hn
  cases m with
  | task => exact absurd rfl htask
  | run => exact absurd rfl hrun
  | present bytes => exact absurd rfl (hpresent bytes)
  | reset tx rx => exact absurd rfl (hreset tx rx)
  | pin level => cases hn; exact ⟨rfl, rfl⟩
  | answer script => cases hn; exact ⟨rfl, rfl⟩
  | dispatch pull => exact isrStep_leaves_task (s := { s with sched := rest, upperPull := pull }) hn
  | stop =>
    simp only [moveStep, List.isEmpty_iff, if_neg hrest] at hn
    cases hn
    exact ⟨rfl, rfl⟩

/-! ### A machine left to itself comes to ISR's turn -/

/-- An operation with no move pending goes to its end. -/
theorem resumeOp_quiet_ends {s t : State} (hq : s.sched = []) (h : resumeOp s = .next t) : t.pos = .none := by
  induction hn : stepsLeft s using Nat.strong_induction_on generalizing s with
  | _ n ih =>
    by_cases hp : s.pos = .none
    · rw [resumeOp_none hp] at h
      cases h
      exact hp
    · rw [resumeOp_eq hp] at h
      cases ha : advance s with
      | none => rw [ha] at h; cases h
      | some u =>
        have hu : u.sched = [] := (advance_frame ha).inputs.2.2.2.1.trans hq
        rw [ha, goOnOr, goOn_quiet hu] at h
        exact ih _ (hn ▸ stepsLeft_advance hp ha) hu h rfl

theorem portCommand_ok {s : State} {c : Instr × List Byte} (h : portCommand s = some c) : decodeCmd s.port = .ok c := by
  unfold portCommand at h
  split at h
  · rename_i r hd
    cases h
    exact hd
  · cases h

/-- A whole command takes at least its command byte from the port. -/
theorem portCommand_shorter {s : State} {i : Instr} {rest : List Byte} (h : portCommand s = some (i, rest)) :
    rest.length < s.port.length := by
  obtain ⟨b, hb, hport⟩ := decodeCmd_sound (portCommand_ok h)
  have hlen : 0 < b.length := by cases hb <;> exact Nat.succ_pos _
  rw [hport, List.length_append]
  omega

/-- With no move pending TASK's step ends its operation, or takes a whole command from the port to its end. -/
theorem taskStep_quiet {s t : State} (hq : s.sched = []) (hw : taskWaits s = false) (h : taskStep s = .next t) :
    t.pos = .none ∧ (s.pos ≠ .none ∧ t.port = s.port ∨ t.port.length < s.port.length) := by
  by_cases hp : s.pos = .none
  · rw [taskStep, if_pos hp] at h
    cases hc : portCommand s with
    | none => rw [(taskWaits_iff s).mpr ⟨hp, hc⟩] at hw; cases hw
    | some c =>
      obtain ⟨i, rest⟩ := c
      rw [hc] at h
      have hshort := portCommand_shorter hc
      rcases exec_cmd_kinds (portCommand_format hc) with ⟨p, b, -, he⟩ | ⟨-, he⟩
      · obtain ⟨-, -, hg⟩ := accept_next ((he _).symm.trans h)
        have hport : t.port = rest := (command_frame hg).inputs.2.2.1
        rw [goOn_quiet (by exact hq)] at hg
        exact ⟨resumeOp_quiet_ends (by exact hq) hg, .inr (hport ▸ hshort)⟩
      · obtain ⟨-, -, rfl⟩ := acceptDone_next ((he _).symm.trans h)
        exact ⟨rfl, .inr hshort⟩
  · rw [taskStep, if_neg hp] at h
    exact ⟨resumeOp_quiet_ends hq h, .inl ⟨hp, (resumeOp_frame h).inputs.2.2.1⟩⟩

/-- What is left before ISR's turn comes: moves first; then, with none, what TASK has in hand, and with a last
`stop` the labelled steps of its atomic block. -/
def waitRank (s : State) : ℕ ×ₗ ℕ :=
  toLex (s.sched.length,
    if s.sched = [] then 2 * s.port.length + (if s.pos = .none then 0 else 1) else stepsLeft s)

theorem waitRank_quiet {s t : State} (hq : s.sched = []) (hw : taskWaits s = false) (h : step s = .next t) :
    waitRank t < waitRank s := by
  have hn : taskStep s = .next t := by
    rw [← (step_next h).2, nextStep_rest hq, restStep, hw, Bool.false_and]
    rfl
  have ht : t.sched = [] := (step_sched h).trans (movesAfter_nil hq)
  obtain ⟨hp, hport⟩ := taskStep_quiet hq hw hn
  refine Prod.Lex.toLex_lt_toLex.mpr (.inr ⟨by rw [hq, ht], ?_⟩)
  simp only [hq, ht, hp, if_true]
  rcases hport with ⟨hs, hport⟩ | hport
  · rw [hport, if_neg hs]; omega
  · omega

theorem waitRank_stopped {s t : State} (hq : s.sched = [.stop]) (hy : s.pos.isYield = false) (h : step s = .next t) :
    waitRank t < waitRank s := by
  have hp : s.pos ≠ .none := fun hp => by rw [hp] at hy; cases hy
  have ht : t.sched = [.stop] := (step_sched h).trans (movesAfter_stopped hq)
  have hn := (step_next h).2
  rw [nextStep_stopped hq, stoppedStep_block hy, resumeOp_eq hp] at hn
  cases ha : advance s with
  | none => rw [ha] at hn; cases hn
  | some u =>
    have hu : u.sched ≠ [] := by rw [(advance_frame ha).inputs.2.2.2.1, hq]; nofun
    rw [ha, goOnOr, goOn_pending hu] at hn
    cases hn
    refine Prod.Lex.toLex_lt_toLex.mpr (.inr ⟨by rw [hq, ht], ?_⟩)
    rw [if_neg hu, if_neg (by rw [hq]; nofun)]
    exact stepsLeft_advance hp ha

theorem waitRank_moves {s t : State} (hq : s.sched ≠ []) (hstop : s.sched ≠ [.stop]) (h : step s = .next t) :
    waitRank t < waitRank s := by
  have ht : t.sched = s.sched.tail := (step_sched h).trans (if_neg hstop)
  have hpos : 0 < s.sched.length := List.length_pos_iff.mpr hq
  refine Prod.Lex.toLex_lt_toLex.mpr (.inl ?_)
  rw [ht, List.length_tail]
  omega

/-- A step that takes no dispatch, with one enabled and pending, comes nearer to ISR's turn. -/
theorem waitRank_step {s t : State} (hr : dispatchReady s = true) (hno : ¬ TakesDispatch s) (h : step s = .next t) :
    waitRank t < waitRank s := by
  by_cases hq : s.sched = []
  · refine waitRank_quiet hq (eq_false_of_ne_true fun hw => hno ⟨.inr (.inl ⟨hq, hw, hr⟩), ?_⟩) h
    rw [canDispatch, ((taskWaits_iff s).mp hw).1, hr]
    rfl
  · by_cases hstop : s.sched = [.stop]
    · refine waitRank_stopped hstop (eq_false_of_ne_true fun hy => hno ⟨.inr (.inr ⟨hstop, hy⟩), ?_⟩) h
      rw [canDispatch, hy, hr]
      rfl
    · exact waitRank_moves hq hstop h

theorem UnattendedRun.weaklyFair {run : ℕ → State} (h : UnattendedRun run) : WeaklyFair run := by
  intro k
  induction hw : waitRank (run k) using WellFoundedLT.induction generalizing k with
  | _ w ih =>
    by_cases hr : dispatchReady (run k) = true
    · by_cases ht : TakesDispatch (run k)
      · exact ⟨k, le_rfl, .inr ht⟩
      · obtain ⟨j, hj, hfair⟩ := ih _ (hw ▸ waitRank_step hr ht (h k)) (k + 1) rfl
        exact ⟨j, Nat.le_of_succ_le hj, hfair⟩
    · exact ⟨k, le_rfl, .inl (eq_false_of_ne_true hr)⟩

/-! ### A weakly fair run -/

/-- The entry's clearing of the latch lasts to the row's end (R137). -/
theorem RunsRow.clears {i : Instr} {row : State → State} (h : RunsRow i row) (s : State) :
    (row (dispatchEntry s)).irqPend = false := by
  cases h with
  | rxComplete => rw [rowRxComplete_irqPend, dispatchEntry_irqPend]
  | unhandled | unhandledPowerDown | rxRearm | rxStart | missedEdge | txDone | txBusy => rfl

/-- A dispatch that is taken leaves none pending. -/
theorem TakesDispatch.clears {s t : State} (h : TakesDispatch s) (hs : step s = .next t) : t.irqPend = false := by
  obtain ⟨hturn, hc⟩ := h
  obtain ⟨hl, hn⟩ := step_next hs
  obtain ⟨pull, hi⟩ := nextStep_isrTurn hturn
  obtain ⟨row, hrow, hr⟩ := isrStep_row (s := { withSched (movesAfter s) s with upperPull := pull }) hl hc
  cases (hn.symm.trans hi).trans hr
  exact hrow.clears _

/-! ### Runs -/

/-- The state after a step, where there is one. -/
def stateAfter (s : State) : State :=
  match step s with
  | .next t => t
  | .fault _ | .refused _ => s

theorem step_stateAfter {s t : State} (h : step s = .next t) : step s = .next (stateAfter s) := by
  simp only [stateAfter, h]

/-- What every step keeps, with progress, holds all along a run of the machine's steps alone. -/
theorem exists_unattendedRun {P : State → Prop} (hP : ∀ u, P u → ∃ t, step u = .next t ∧ P t) {s : State} (hs : P s) :
    ∃ run, UnattendedRun run ∧ run 0 = s ∧ ∀ k, P (run k) := by
  have hafter : ∀ u, P u → step u = .next (stateAfter u) ∧ P (stateAfter u) := fun u hu => by
    obtain ⟨t, ht, hPt⟩ := hP u hu
    have hstep := step_stateAfter ht
    cases ht.symm.trans hstep
    exact ⟨hstep, hPt⟩
  have hrun : ∀ k, P (stateAfter^[k] s) := fun k => by
    induction k with
    | zero => exact hs
    | succ k ih => rw [Function.iterate_succ_apply']; exact (hafter _ ih).2
  refine ⟨fun k => stateAfter^[k] s, fun k => ?_, rfl, hrun⟩
  simp only [Function.iterate_succ_apply']
  exact (hafter _ (hrun k)).1

/-- TASK has stopped at the interleaving point p, with these bytes at the port. -/
structure StoppedAt (p : Pos) (port : List Byte) (s : State) : Prop where
  legal : s.Legal
  pos : s.pos = p
  port : s.port = port
  sched : s.sched = [.stop]

/-- Where TASK has stopped, ISR goes on for ever. -/
theorem StoppedAt.step {p : Pos} {port : List Byte} (hy : p.isYield = true) {s : State} (h : StoppedAt p port s) :
    ∃ t, step s = .next t ∧ StoppedAt p port t := by
  obtain ⟨hl, rfl, rfl, hq⟩ := h
  obtain ⟨t, ht⟩ := isrStep_progress hl
  obtain ⟨hpos, hport⟩ := isrStep_leaves_task ht
  refine ⟨t, ?_, isrStep_legal hl ht, hpos, hport, (isrStep_sched ht).trans hq⟩
  rw [step_legal hl, nextStep_stopped hq, stoppedStep_yield hy, ht]

/-- The run of the given moves, each scheduled one step before its own. -/
def movesRun (s : State) (moves : ℕ → Move) : ℕ → State
  | 0 => withSched [moves 0, moves 1] s
  | k + 1 => (stateAfter (movesRun s moves k)).schedule [moves (k + 2)]

/-- A step with another move behind it, where no command arrives. -/
theorem step_two_moves {u : State} {m m' : Move} (h : MachineInv u) (hq : u.sched = [m, m'])
    (hm : ∀ bytes, m ≠ .present bytes) :
    step u = .next (stateAfter u) ∧ MachineInv (stateAfter u) ∧ (stateAfter u).sched = [m'] := by
  have hport : ∀ bytes rest, u.sched = .present bytes :: rest → u.pos = .none := fun bytes rest hb =>
    absurd (List.cons.inj (hq.symm.trans hb)).1 (hm bytes)
  obtain ⟨t, ht⟩ := step_progress h hport
  have hs := step_stateAfter ht
  exact ⟨hs, stepKeepsInv _ _ h hs, (step_sched hs).trans (movesAfter_move hq (.inr nofun))⟩

section
variable {s : State} {moves : ℕ → Move} (hinv : MachineInv s) (hm : ∀ k bytes, moves k ≠ .present bytes)
include hinv hm

theorem movesRun_inv (k : ℕ) :
    MachineInv (movesRun s moves k) ∧ (movesRun s moves k).sched = [moves k, moves (k + 1)] := by
  induction k with
  | zero => exact ⟨hinv.environment, rfl⟩
  | succ k ih =>
    obtain ⟨-, hnext, hq⟩ := step_two_moves ih.1 ih.2 (hm k)
    refine ⟨hnext.environment, ?_⟩
    rw [movesRun, State.schedule, hq]
    rfl

theorem movesRun_step (k : ℕ) : step (movesRun s moves k) = .next (stateAfter (movesRun s moves k)) :=
  have ⟨hk, hq⟩ := movesRun_inv hinv hm k
  (step_two_moves hk hq (hm k)).1

theorem movesRun_isRun : IsRun (movesRun s moves) := fun k => ⟨_, _, movesRun_step hinv hm k, rfl⟩

/-- With none of TASK's moves and no reset, TASK's operation never goes on. -/
theorem movesRun_leaves_task (hno : ∀ j, moves j ≠ .task ∧ moves j ≠ .run ∧ ∀ tx rx, moves j ≠ .reset tx rx) (k : ℕ) :
    (movesRun s moves k).pos = s.pos ∧ (movesRun s moves k).port = s.port := by
  induction k with
  | zero => exact ⟨rfl, rfl⟩
  | succ k ih =>
    obtain ⟨htask, hrun, hreset⟩ := hno k
    obtain ⟨hpos, hport⟩ := step_leaves_task (movesRun_inv hinv hm k).2 nofun htask hrun (hm k) hreset
      (movesRun_step hinv hm k)
    exact ⟨hpos.trans ih.1, hport.trans ih.2⟩

end

/-- Settles O52: by what is left before ISR's turn; by ISR's progress where TASK has stopped; by progress under any
moves; and by the cleared latch of a taken dispatch. -/
theorem onlyTheDispatchIsFair : Obligations.OnlyTheDispatchIsFair := by
  refine ⟨fun run => UnattendedRun.weaklyFair, fun s hl hq hy => ?_, fun s moves hinv hm => ?_,
    fun run hrun hfair k => ?_⟩
  · obtain ⟨run, hrun, hstart, hstopped⟩ := exists_unattendedRun (P := StoppedAt s.pos s.port)
      (fun _ => StoppedAt.step hy) ⟨hl, rfl, rfl, hq⟩
    exact ⟨run, hrun, hstart, fun k => ⟨(hstopped k).pos, (hstopped k).port, (hstopped k).sched⟩⟩
  · exact ⟨movesRun s moves, movesRun_isRun hinv hm, rfl, fun k =>
      ⟨(movesRun_inv hinv hm k).2, fun hno => movesRun_leaves_task hinv hm hno k⟩⟩
  · obtain ⟨j, hj, hno | htakes⟩ := hfair k
    · exact ⟨j, hj, hno⟩
    · obtain ⟨t, ms, ht, hnext⟩ := hrun j
      refine ⟨j + 1, Nat.le_succ_of_le hj, ?_⟩
      rw [hnext, dispatchReady, schedule_irqPend, htakes.clears ht, Bool.and_false]

end Sys2Proof.Machine
end

section
/-! O25, O26 and O27: the Receive Path by its outcomes, and the row that runs it (43_receive_path.md sections 1 and 2;
42_fsm_isr.md R140). -/

namespace Sys2Proof.Machine

/-! ### Register reads -/

/-- The state after reads with the given records, which left the given script and count of draws. -/
def heard (rs : List BusRecord) (as : List Answer) (d : Nat) (s : State) : State :=
  { s with answers := as, draws := d, busTrace := s.busTrace ++ rs }

theorem busRead_script {r v : Byte} {s : State} {rest : List Answer} (h : takeAnswer r s.answers = some (v, rest)) :
    busRead r s = (v, heard [.rd r v] rest s.draws s) :=
  busRead_hit h

/-- Whatever the transceiver answers, a scripted value or a draw, a read leaves its record and nothing else. -/
theorem busRead_heard (r : Byte) (s : State) :
    ∃ v u, busRead r s = (v, u) ∧ ∃ as d, u = heard [.rd r v] as d s := by
  cases h : takeAnswer r s.answers with
  | none =>
    refine ⟨_, _, rfl, s.answers, s.draws + 1, ?_⟩
    simp only [nextAnswer, h]
    rfl
  | some p => exact ⟨_, _, busRead_script h, _, _, rfl⟩

theorem busRead_keeps_params {r v : Byte} {s u : State} (h : busRead r s = (v, u)) : u.params = s.params := by
  rw [← busRead_params r s, h]

/-! ### The outcomes of the Receive Path -/

/-- P0 (R153): outside ReceivingBusy nothing happens. -/
theorem rxPath_errState {s : State} (h : s.state ≠ RadioState.receivingBusy.code) : rxPath s = (.errState, s) :=
  if_neg h

section
variable {s u₁ u₂ u₃ u₄ : State} {n st rssi raw : Byte}
  (hs : s.state = RadioState.receivingBusy.code)
  (hn : busRead s.params.regRxBytes s = (n, u₁))
  (hst : busRead s.params.regRxStatus u₁ = (st, u₂))
include hs hn hst

/-- P3 (R156): any other status ends the path after its two reads. -/
theorem rxPath_abortedStatus (hc : st ≠ s.params.rxStatusClean) : rxPath s = (.abortedStatus, u₂) := by
  simp only [rxPath, if_pos hs, hn, hst, if_neg hc]

variable (hc : st = s.params.rxStatusClean)
  (hrssi : busRead s.params.regRssi u₂ = (rssi, u₃))
  (hraw : busRead s.params.regLqi u₃ = (raw, u₄))
include hc hrssi hraw

/-- P3 and P4 (R156, R157): a clean status goes on to the metadata, and so to the integrity check. -/
theorem rxPath_clean : rxPath s = rxIntegrity n rssi raw u₄ := by
  have hp : u₂.params = s.params := (busRead_keeps_params hst).trans (busRead_keeps_params hn)
  simp only [rxPath, if_pos hs, hn, hst, if_pos hc, rxMetadata, hp, hrssi, hraw]

/-- P5 (R158): a failed check counts, and that is all. -/
theorem rxPath_rejected (hcrc : raw.toNat < 128) :
    rxPath s = (.rejected, { u₄ with statCrcFail := u₄.statCrcFail + 1 }) := by
  rw [rxPath_clean hs hn hst hc hrssi hraw, rxIntegrity, lqiSplit_crc, if_neg (by simpa using hcrc)]

/-- P5 (R158): a passed check delivers, with the other seven bits as the link quality. -/
theorem rxPath_delivered (hcrc : 128 ≤ raw.toNat) :
    rxPath s = (.delivered, rxDeliver n rssi (raw.setWidth 7) u₄) := by
  have hq : (lqiSplit raw).2 = raw.setWidth 7 := (BitVec.setWidth_eq_extractLsb' (by decide)).symm
  rw [rxPath_clean hs hn hst hc hrssi hraw, rxIntegrity, lqiSplit_crc, if_pos (decide_eq_true hcrc), hq]

end

/-! ### A delivery -/

@[simp] theorem rxDeliver_rxBuf (n rssi : Byte) (q : BitVec 7) (s : State) :
    (rxDeliver n rssi q s).rxBuf = s.rxBuf.writeBytes 0 (burstRead s.params.regRxFifo n.toNat s).1 :=
  (rxDeliver_delivers n rssi q s).stored

@[simp] theorem rxDeliver_busTrace (n rssi : Byte) (q : BitVec 7) (s : State) :
    (rxDeliver n rssi q s).busTrace =
      s.busTrace ++ [.brd s.params.regRxFifo (burstRead s.params.regRxFifo n.toNat s).1] := by
  simp [rxDeliver]

/-- P6 and P7 of a scripted payload (R159, R160): UPPER's pull reads back the bytes just stored (R184). -/
theorem rxDeliver_script {s : State} {n : Byte} {b : List Byte} {rest : List Answer} (hw : s.rxBuf.wf)
    (ha : s.answers = b.map (Answer.mk s.params.regRxFifo) ++ rest) (hlen : b.length = n.toNat)
    (rssi : Byte) (q : BitVec 7) :
    rxDeliver n rssi q s = { s with
      answers := rest
      rxBuf := s.rxBuf.writeBytes 0 b
      rxLen := n
      rxRssi := rssi
      rxLqi := q
      statRx := s.statRx + 1
      busTrace := s.busTrace ++ [.brd s.params.regRxFifo b]
      events := s.events ++ [.frameAvailable]
      upperCopies := s.upperCopies ++
        (if s.upperPull then [{ len := n, bytes := b, rssi := rssi, lqi := q }] else []) } := by
  have hb : (s.rxBuf.writeBytes 0 b).readBytes 0 n.toNat = b := hlen ▸ Memory.readBytes_writeBytes hw 0 b
  simp only [rxDeliver, ← hlen, burstRead_script ha, upperPullStep, upperCopyOf, storeFrame, State.emit]
  rw [hlen, hb]

/-! ### The row of the key (ReceivingBusy, low) -/

/-- What the row leaves once its Receive Path has left u: the outcome's log, the re-arm, and Receiving (R140). -/
def listening (o : RxOutcome) (u : State) : State :=
  { u with
    state := RadioState.receiving.code
    busTrace := u.busTrace ++ [.st u.params.strobeRx]
    events := u.events ++ o.logs }

theorem rowRxComplete_eq {s u : State} {o : RxOutcome} (h : rxPath s = (o, u)) : rowRxComplete s = listening o u := by
  rw [rowRxComplete, h]
  rfl

section
variable {s u : State} {o : RxOutcome} (he : s.irqEn = true) (hp : s.irqPend = true)
  (hs : s.state = RadioState.receivingBusy.code) (hb : s.evtPin = false)
include he hp hs hb

theorem exec_rxComplete : exec .dispatchRxComplete s = .next (rowRxComplete (dispatchEntry s)) :=
  takeDispatch_row he hp hs hb rowRxComplete

theorem exec_rxComplete_eq (h : rxPath (dispatchEntry s) = (o, u)) :
    exec .dispatchRxComplete s = .next (listening o u) := by
  rw [exec_rxComplete he hp hs hb, rowRxComplete_eq h]

end

/-- Settles O25: a clean status and a passed check, with the payload scripted for the burst. -/
theorem deliveredReception : Obligations.DeliveredReception := by
  intro s n rssi raw b a₁ a₂ a₃ rest he hp hs hb hw hn hst hrssi hraw hlen hcrc
  have hpath := rxPath_delivered (s := dispatchEntry s) hs (busRead_script hn) (busRead_script hst) rfl
    (busRead_script hrssi) (busRead_script hraw) hcrc
  have hstored := hpath.trans (congrArg _ (rxDeliver_script (by exact hw) rfl hlen ..))
  rw [exec_rxComplete_eq he hp hs hb hstored]
  simp [listening, heard, dispatchEntry, RxOutcome.logs]

/-- Settles O26: a clean status with a failed check, another status, and another state. -/
theorem failedReceptions : Obligations.FailedReceptions := by
  refine ⟨fun s n rssi raw a₁ a₂ a₃ rest he hp hs hb hn hst hrssi hraw hcrc => ?_,
    fun s n st a₁ rest he hp hs hb hn hst hc => ?_, fun s => rxPath_errState⟩
  · have hpath := rxPath_rejected (s := dispatchEntry s) hs (busRead_script hn) (busRead_script hst) rfl
      (busRead_script hrssi) (busRead_script hraw) hcrc
    rw [exec_rxComplete_eq he hp hs hb hpath]
    simp [listening, heard, dispatchEntry, RxOutcome.logs]
  · have hpath := rxPath_abortedStatus (s := dispatchEntry s) hs (busRead_script hn) (busRead_script hst) hc
    rw [exec_rxComplete_eq he hp hs hb hpath]
    simp [listening, heard, dispatchEntry, RxOutcome.logs]

/-- Settles O27: by the status read and, with a clean one, by the integrity bit read. -/
theorem receptionHasThreeOutcomes : Obligations.ReceptionHasThreeOutcomes := by
  intro s he hp hs hb
  refine ⟨_, exec_rxComplete he hp hs hb, rowRxComplete_state _, rowRxComplete_irqPend _,
    (rowRxComplete_irqEn _).trans he, rowRxComplete_txBuf _, rowRxComplete_txLen _, rowRxComplete_statTx _,
    rowRxComplete_hostOut _, ?_⟩
  obtain ⟨n, u₁, hn, a₁, d₁, h₁⟩ := busRead_heard s.params.regRxBytes (dispatchEntry s)
  obtain ⟨st, u₂, hst, a₂, d₂, h₂⟩ := busRead_heard s.params.regRxStatus u₁
  obtain ⟨rssi, u₃, hrssi, a₃, d₃, h₃⟩ := busRead_heard s.params.regRssi u₂
  obtain ⟨raw, u₄, hraw, a₄, d₄, h₄⟩ := busRead_heard s.params.regLqi u₃
  by_cases hc : st = s.params.rxStatusClean
  · have hreads : u₄ = heard [.rd s.params.regRxBytes n, .rd s.params.regRxStatus s.params.rxStatusClean,
        .rd s.params.regRssi rssi, .rd s.params.regLqi raw] a₄ d₄ (dispatchEntry s) := by
      simp [h₁, h₂, h₃, h₄, hc, heard]
    rcases Nat.lt_or_ge raw.toNat 128 with hcrc | hcrc
    · rw [rowRxComplete_eq (rxPath_rejected (s := dispatchEntry s) hs hn hst hc hrssi hraw hcrc)]
      refine .inr (.inl ⟨n, rssi, raw, hcrc, ?_⟩)
      simp [hreads, listening, heard, RxOutcome.logs]
    · have hlen := burstRead_length s.params.regRxFifo n.toNat u₄
      have hstored (hw : s.rxBuf.wf) (i : Nat) :=
        hlen ▸ Memory.read_writeBytes_zero hw (burstRead s.params.regRxFifo n.toNat u₄).1 i
      rw [rowRxComplete_eq (rxPath_delivered (s := dispatchEntry s) hs hn hst hc hrssi hraw hcrc)]
      refine .inl ⟨n, rssi, raw, _, hlen, hcrc, ?_⟩
      simpa [hreads, listening, heard, RxOutcome.logs] using hstored
  · rw [rowRxComplete_eq (rxPath_abortedStatus (s := dispatchEntry s) hs hn hst hc), h₂, h₁]
    refine .inr (.inr ⟨n, st, hc, ?_⟩)
    simp [listening, heard, RxOutcome.logs]

end Sys2Proof.Machine
end

section
/-! O38, O39, O41 to O45, O47, O49 and O50: the host-driver adapter (44_adapter.md). INIT, RECEIVE, GET and SET run
undisturbed, the port while an operation is in progress, and the step that runs what the port holds. -/

namespace Sys2Proof.Machine

/-! ### RECEIVE -/

/-- Settles O39: V1's space check, then the copy loop from index 0. -/
theorem receiveCopiesFrame : Obligations.ReceiveCopiesFrame := by
  intro s m hr
  have hp : s.pos = .none := hr.2.1
  have hq : s.sched = [] := hr.2.2
  refine ⟨fun hm => ?_, fun hm => ?_⟩
  · rw [exec_receive_ready hr, receiveV1, if_neg (by exact Nat.not_lt.mpr hm), receiveV2_quiet (by exact hq)]
    simp [latchFrame, acceptedAt, hp]
  · rw [exec_receive_ready hr, receiveV1, if_pos (by exact hm), finish_eq]
    simp [latchFrame, acceptedAt, hp]

/-! ### INIT -/

/-- INIT from I1, with no move pending (R166). -/
theorem initI1_quiet {s : State} (hq : s.sched = []) :
    initI1 s = .next { s with
      pos := .none
      irqEn := true
      irqPend := false
      txFault := false
      state := if s.params.initArmsRx then RadioState.receiving.code else RadioState.idle.code
      busTrace := s.busTrace ++ ([.st s.params.strobeIdle, .wr s.params.regChannel s.channel] ++
        (if s.params.initArmsRx then [.st s.params.strobeRx] else []))
      events := s.events ++ [.done 0 none] } := by
  rw [initI1, goto_quiet (by exact hq), initI2, goto_quiet (by exact hq), initI3, goto_quiet (by exact hq),
    initI4, goto_quiet (by exact hq), initI5, goto_quiet (by exact hq), initI6, goto_quiet (by exact hq),
    initI7, goto_quiet (by exact hq), initI7done, finish_eq]
  simp [irqDisable, clearPending, clearTxFault, strobe, busWrite, setRadio, armReceive, irqEnable, State.record]

/-- Settles O38: INIT's acceptance and its steps do not look at the state they start from. -/
theorem initBringsUpBlock : Obligations.InitBringsUpBlock := by
  rintro s ⟨hl, hp, hq⟩
  have hx : exec .init s = initI1 (acceptedAt s (.init .i1) []) := accept_quiet hl hp hq _ _ _
  rw [hx, initI1_quiet (by exact hq), ← hp]
  rfl

/-! ### Ends with no effect -/

/-- An accepted command that ends at once leaves its latched operands and its result. -/
theorem finished_acceptedAt {s : State} (hp : s.pos = .none) (p : Pos) (b : List Byte) (r : Result) :
    finished r (acceptedAt s p b) = afterResult s b r := by
  rw [finished, ← hp]
  rfl

theorem finish_acceptedAt {s : State} (hp : s.pos = .none) (p : Pos) (b : List Byte) (r : Result) :
    finish r (acceptedAt s p b) = .next (afterResult s b r) :=
  congrArg Host.Outcome.next (finished_acceptedAt hp p b r)

/-! ### GET -/

/-- A whole GET of an option that has a value (R169). -/
theorem exec_getRow_value {s : State} (hr : s.Ready) {opt : BitVec 4} {bytes : List Byte}
    (ho : optionValue opt s = some bytes) (m : Byte) : exec (getRow opt m) s = .next (afterGet s m bytes) := by
  have ho' : optionValue opt (acceptedAt s (.get opt) [m]) = some bytes := ho
  have hm : (acceptedAt s (.get opt) [m]).maxLen = m.toNat := rfl
  simp only [exec_getRow_ready hr, advanceGet, ho', hm, afterGet]
  split
  · rw [finished_acceptedAt hr.2.1, afterResult]
  · simp [finished, acceptedAt, writeHostOut, hr.2.1]

/-- A whole GET of a reserved option (R176). -/
theorem exec_getRow_reserved {s : State} (hr : s.Ready) {opt : BitVec 4} (ho : optionValue opt s = none) (m : Byte) :
    exec (getRow opt m) s = .next (afterResult s [m] errNotSup) := by
  have ho' : optionValue opt (acceptedAt s (.get opt) [m]) = none := ho
  simp only [exec_getRow_ready hr, advanceGet, ho', finished_acceptedAt hr.2.1]

/-- Settles O41: each option's value, by its id. -/
theorem getOptionValues : Obligations.GetOptionValues := by
  intro s m hr
  have hget (opt : BitVec 4) {bytes : List Byte} (ho : optionValue opt s = some bytes) := exec_getRow_value hr ho m
  exact ⟨hget 0 rfl, hget 1 rfl, hget 2 rfl, hget 3 rfl, hget 4 rfl, hget 5 rfl⟩

/-- Settles O42: option ids 6 to F have no value. -/
theorem getReservedNotSupported : Obligations.GetReservedNotSupported := by
  intro s m hr
  have hget (opt : BitVec 4) (ho : optionValue opt s = none) := exec_getRow_reserved hr ho m
  exact ⟨hget 6 rfl, hget 7 rfl, hget 8 rfl, hget 9 rfl, hget 10 rfl, hget 11 rfl, hget 12 rfl, hget 13 rfl,
    hget 14 rfl, hget 15 rfl⟩

/-! ### SET -/

/-- SET's rows are the SET of their option ids (30_encoding.md R79). -/
theorem exec_setRow (opt : BitVec 4) (v : List Byte) (s : State) : exec (setRow opt v) s = setCommand opt v s := by
  obtain ⟨n, hn⟩ := opt
  interval_cases n <;> rfl

/-- A whole SET is its acceptance and E1, which runs to the end (R177). -/
theorem exec_setRow_ready {s : State} (hr : s.Ready) (opt : BitVec 4) (v : List Byte) :
    exec (setRow opt v) s = setE1 opt (acceptedAt s (.set (.e1 opt)) v) := by
  rw [exec_setRow]
  exact accept_quiet hr.1 hr.2.1 hr.2.2 _ _ _

/-- E1 refuses every option but CHANNEL and ADDRESS (R180, R181). -/
theorem exec_setRow_refused {s : State} (hr : s.Ready) {opt : BitVec 4}
    (ho : ¬ (opt = optChannel ∨ opt = optAddress)) (v : List Byte) :
    exec (setRow opt v) s = .next (afterResult s v errNotSup) := by
  rw [exec_setRow_ready hr, setE1, if_neg ho, finish_acceptedAt hr.2.1]

/-- E1 refuses a zero-length value of CHANNEL and ADDRESS (R177). -/
theorem exec_setRow_empty {s : State} (hr : s.Ready) {opt : BitVec 4} (ho : opt = optChannel ∨ opt = optAddress) :
    exec (setRow opt []) s = .next (afterResult s [] errInval) := by
  rw [exec_setRow_ready hr, setE1, if_pos ho, if_pos (by rfl), finish_acceptedAt hr.2.1]

/-- SET's command byte for an option id (30_encoding.md R77 to R79). -/
theorem cmdByte_set (opt : BitVec 4) : 0x50 ||| opt.setWidth 8 = cmdByte 5#4 opt := by
  revert opt; decide

/-- Settles O43: the form of SET takes its value from the stream, and E1 refuses before it reads it. -/
theorem setReadOnlyOrReservedRefused : Obligations.SetReadOnlyOrReservedRefused := by
  refine ⟨fun opt v rest hv => ?_, fun s v hr => ?_⟩
  · rw [cmdByte_set]
    exact (Encodes.set opt hv).decode_append rest
  · have hset (opt : BitVec 4) (ho : ¬ (opt = optChannel ∨ opt = optAddress)) := exec_setRow_refused hr ho v
    exact ⟨hset 0 (by decide), hset 1 (by decide), hset 4 (by decide), hset 5 (by decide), hset 6 (by decide),
      hset 7 (by decide), hset 8 (by decide), hset 9 (by decide), hset 10 (by decide), hset 11 (by decide),
      hset 12 (by decide), hset 13 (by decide), hset 14 (by decide), hset 15 (by decide)⟩

/-- SET CHANNEL of a value that is there comes to C1 (R177, R178). -/
theorem exec_setChannel_ready {s : State} (hr : s.Ready) (v : Byte) (vs : List Byte) :
    exec (.setChannel (v :: vs)) s = setC1 (acceptedAt s (.set .c1) (v :: vs)) := by
  have hx := exec_setRow_ready hr optChannel (v :: vs)
  rw [setE1, if_pos (.inl rfl), if_neg (by exact List.cons_ne_nil v vs), if_pos rfl, goto_quiet (by exact hr.2.2)] at hx
  exact hx

/-- SET ADDRESS of a value that is there comes to A1 (R177, R179). -/
theorem exec_setAddress_ready {s : State} (hr : s.Ready) (v : Byte) (vs : List Byte) :
    exec (.setAddress (v :: vs)) s = setA1 (acceptedAt s (.set .a1) (v :: vs)) := by
  have hx := exec_setRow_ready hr optAddress (v :: vs)
  rw [setE1, if_pos (.inr rfl), if_neg (by exact List.cons_ne_nil v vs), if_neg (by decide),
    goto_quiet (by exact hr.2.2)] at hx
  exact hx

/-- SET CHANNEL's check, as its range (R178). -/
theorem channelInRange_iff (v : Byte) (s : State) :
    channelInRange v s = true ↔ s.params.chanMin ≤ v ∧ v ≤ s.params.chanMax := by
  simp [channelInRange]

/-- Settles O44: C1 lets a channel in range pass to C2, which stores and writes it. -/
theorem setChannelValidates : Obligations.SetChannelValidates := by
  intro s v vs hr
  have hp : s.pos = .none := hr.2.1
  have hq : s.sched = [] := hr.2.2
  refine ⟨fun hmin hmax => ?_, fun hout => ?_, exec_setRow_empty hr (.inl rfl)⟩
  · have hin : channelInRange v s = true := (channelInRange_iff v s).mpr ⟨hmin, hmax⟩
    rw [exec_setChannel_ready hr, setC1, if_pos (by exact hin), goto_quiet (by exact hq), setC2,
      goto_quiet (by exact hq), setC2write, finish_eq]
    simp [acceptedAt, busWrite, State.record, State.setValue, hp]
  · have hno : ¬ (s.params.chanMin ≤ v ∧ v ≤ s.params.chanMax) := fun ⟨hmin, hmax⟩ =>
      hout.elim (BitVec.not_lt.mpr hmin) (BitVec.not_lt.mpr hmax)
    rw [exec_setChannel_ready hr, setC1, if_neg (by exact mt (channelInRange_iff v s).mp hno), finish_acceptedAt hp]

/-- Settles O45: A1 lets any address but 0 pass to A2, which stores it. -/
theorem setAddressValidates : Obligations.SetAddressValidates := by
  intro s v vs hr
  have hp : s.pos = .none := hr.2.1
  have hq : s.sched = [] := hr.2.2
  refine ⟨fun hv => ?_, ?_, exec_setRow_empty hr (.inr rfl)⟩
  · rw [exec_setAddress_ready hr, setA1, if_neg (by exact hv), goto_quiet (by exact hq), setA2, finish_eq]
    simp [acceptedAt, State.setValue, hp]
  · rw [exec_setAddress_ready hr, setA1, if_pos (by rfl), finish_acceptedAt hp]

/-! ### The port while an operation is in progress -/

theorem exec_cmd_busy {i : Instr} {s : State} (hi : i.format = .cmd) (hl : s.Legal) (hp : s.pos ≠ .none) :
    exec i s = .refused .portBusy := by
  rcases exec_cmd_kinds hi with ⟨p, b, -, he⟩ | ⟨-, he⟩
  · rw [he, accept_busy hl hp]
  · rw [he, acceptDone_busy hl hp]

/-- Settles O47: every command's acceptance, and the arrival of bytes, look at the sequencer. -/
theorem commandsRefusedWhileBusy : Obligations.CommandsRefusedWhileBusy := by
  refine ⟨fun i s => exec_cmd_busy, fun s bytes rest hl hq => ?_⟩
  have hstep : step s = presentBytes bytes { s with sched := rest } := (step_legal hl).trans (nextStep_move hq)
  refine ⟨fun hp => ?_, fun hp => ?_⟩
  · rw [hstep, presentBytes, if_neg (by exact hp)]
  · rw [hstep, presentBytes, if_pos (by exact hp)]

/-! ### The step -/

theorem checkState_congr {s u : State} (h : u.state = s.state) (o : Outcome) : checkState s o = checkState u o := by
  rw [checkState, checkState, h]

/-- A command looks at the state register itself, so the step's own look adds nothing to it (R35). -/
theorem checkState_exec_cmd {i : Instr} (h : i.format = .cmd) (s : State) : checkState s (exec i s) = exec i s := by
  rcases exec_cmd_kinds h with ⟨p, b, -, he⟩ | ⟨-, he⟩
  · rw [he]; exact checkState_twice rfl _
  · rw [he]; exact checkState_twice rfl _

/-- A step that runs a command is that command, also in a reserved state. -/
theorem step_runs_command {s u : State} {i : Instr} (hi : i.format = .cmd) (hn : nextStep s = exec i u)
    (hst : u.state = s.state) : step s = exec i u := by
  rw [step, hn, checkState_congr hst, checkState_exec_cmd hi]

theorem portCommand_whole {s : State} {c : Instr × List Byte} (h : decodeCmd s.port = .ok c) :
    portCommand s = some c := by
  simp only [portCommand, h]

/-- TASK, between commands, runs the whole command at the port (R80, R165). -/
theorem taskStep_command {s : State} {i : Instr} {bytes : List Byte} (hp : s.pos = .none)
    (hd : decodeCmd s.port = .ok (i, bytes)) : taskStep s = exec i { s with port := bytes } := by
  simp only [taskStep, if_pos hp, portCommand_whole hd]

theorem taskStep_waits {s : State} (hw : taskWaits s = true) : taskStep s = .next s := by
  obtain ⟨hp, hc⟩ := (taskWaits_iff s).mp hw
  simp only [taskStep, if_pos hp, hc]

theorem taskStep_resumes {s : State} (hp : s.pos ≠ .none) : taskStep s = resumeOp s := if_neg hp

/-- With no move pending, the step is TASK's wherever no dispatch is to be taken. -/
theorem nextStep_task {s : State} (hq : s.sched = []) (h : taskWaits s = false ∨ dispatchReady s = false) :
    nextStep s = taskStep s := by
  rw [nextStep_rest hq, restStep, if_neg]
  rcases h with h | h <;> simp [h]

theorem undisturbed_of_next {f : State → Outcome} {s t : State} (h : f { s with sched := [] } = .next t)
    (rest : List Move) : undisturbed f rest s = .next { t with sched := rest } := by
  simp only [undisturbed, h]

section
variable {s : State} {i : Instr} {bytes : List Byte} (hp : s.pos = .none) (hd : decodeCmd s.port = .ok (i, bytes))
include hp hd

/-- With no move pending, the step is the command at the port. -/
theorem step_quiet_command (hq : s.sched = []) : step s = exec i { s with port := bytes } := by
  have hw : taskWaits s = false := by simp [taskWaits, portCommand_whole hd]
  exact step_runs_command (decodeCmd_format hd) ((nextStep_task hq (.inl hw)).trans (taskStep_command hp hd)) rfl

/-- TASK's move is the command at the port, with the moves after it still to come. -/
theorem step_task_command {rest : List Move} (hq : s.sched = .task :: rest) :
    step s = exec i { s with port := bytes, sched := rest } :=
  step_runs_command (decodeCmd_format hd)
    ((nextStep_move hq).trans (taskStep_command (s := { s with sched := rest }) hp hd)) rfl

/-- The move `run` is the command at the port run undisturbed, and then the moves after it. -/
theorem step_run_command {rest : List Move} {t : State} (hq : s.sched = .run :: rest)
    (hx : exec i { s with port := bytes, sched := [] } = .next t) : step s = .next { t with sched := rest } := by
  have hl : s.Legal := (checkState_next ((checkState_exec_cmd (decodeCmd_format hd) _).trans hx)).1
  rw [step_legal hl, nextStep_move hq]
  exact undisturbed_of_next ((taskStep_command (s := { s with sched := [] }) hp hd).trans hx) rest

end

/-- Settles O49: by what the port holds, by whose move it is, and by the acceptance of each operation's command. -/
theorem stepRunsDecodedCommand : Obligations.StepRunsDecodedCommand := by
  refine ⟨fun s rest => ⟨fun i bytes hp hd => ?_, fun e hl hp hd => ?_, fun hl hp => ?_⟩, fun s hl hp hq => ?_⟩
  · exact ⟨step_quiet_command hp hd, step_task_command hp hd, fun t => step_run_command hp hd⟩
  · have hw : taskWaits s = true := (taskWaits_iff s).mpr ⟨hp, portCommand_error hd⟩
    refine ⟨fun hq hr => ?_, fun hq => ?_⟩
    · rw [step_legal hl, nextStep_task hq (.inr hr), taskStep_waits hw]
    · rw [step_legal hl, nextStep_move hq]
      exact taskStep_waits hw
  · have hw : taskWaits s = false := by simp [taskWaits, hp]
    refine ⟨fun hq => ?_, fun hq hy => ?_, fun hq => ?_⟩
    · rw [step_legal hl, nextStep_task hq (.inl hw), taskStep_resumes hp]
    · rw [step_legal hl, nextStep_stopped hq, stoppedStep_block hy]
    · rw [step_legal hl, nextStep_move hq]
      exact taskStep_resumes hp
  · have haccept (p : Pos) (b : List Byte) (f : State → Outcome) : accept p b s f = .next (acceptedAt s p b) :=
      accept_pending hl hp hq p b f
    exact ⟨haccept _ _ _, fun f => haccept _ _ _, fun m => haccept _ _ _,
      fun opt m => (exec_getRow opt m s).trans (haccept _ _ _),
      fun opt v => (exec_setRow opt v s).trans (haccept _ _ _)⟩

/-! ### Presented words -/

/-- A word of more than four bits is read as a command, which its own bytes are the form of (log 11). -/
theorem wordBytes_whole {nbits w : Nat} {i : Instr} (h : decodeTableWord nbits w = some i) (hn : 4 < nbits) :
    decodeCmd (wordBytes nbits w) = .ok (i, []) := by
  have hb : wordBytes nbits w = encode i := by simp only [wordBytes, h]
  rw [decodeTableWord, if_neg (Nat.not_le.mpr hn)] at h
  split at h
  · rename_i hd
    cases h
    obtain ⟨b, he, -⟩ := decodeCmd_sound hd
    rw [hb, he.encode_eq, ← b.append_nil]
    exact he.decode_append []
  · cases h

/-- The presented key's dispatch at ISR's turn: in the state and with the level of the key, enabled and pending,
between commands, with no pull (log 12, 15). -/
def presentedKey (k : BitVec 4) (s : State) : State :=
  { s with
    state := k.extractLsb' 1 3
    evtPin := k.getLsbD 0
    pinPrev := k.getLsbD 0
    irqEn := true
    irqPend := true
    pos := .none
    sched := []
    upperPull := false }

/-- A key is its state code with its level (30_encoding.md R90). -/
theorem dispatchKey_presentedKey (k : BitVec 4) (s : State) : dispatchKey (presentedKey k s) = k := by
  show k.extractLsb' 1 3 ++ BitVec.ofBool (k.getLsbD 0) = k
  revert k; decide

/-- A word of at most four bits is presented as its key's dispatch, with ISR's move next (log 11, 12). -/
theorem withFetchWord_key {nbits : Nat} (hn : nbits ≤ 4) (w : Nat) (s : State) :
    s.withFetchWord nbits w =
      { presentedKey (BitVec.ofNat 4 w) s with sched := [.dispatch false], upperPull := s.upperPull } :=
  if_pos hn

/-- The step from a presented key is the key's row. -/
theorem step_withFetchWord_key {nbits : Nat} (hn : nbits ≤ 4) (w : Nat) (s : State) :
    step (s.withFetchWord nbits w) = exec (decodeKey (BitVec.ofNat 4 w)) (presentedKey (BitVec.ofNat 4 w) s) := by
  have hnext : nextStep (s.withFetchWord nbits w) = isrStep (presentedKey (BitVec.ofNat 4 w) s) := by
    rw [withFetchWord_key hn]
    rfl
  have hstate : (presentedKey (BitVec.ofNat 4 w) s).state = (s.withFetchWord nbits w).state := by
    rw [withFetchWord_key hn]
  rw [step_runs_row hnext hstate rfl rfl rfl, dispatchKey_presentedKey]

/-- A longer word is presented as its bytes at the port. -/
theorem withFetchWord_command {nbits : Nat} (hn : 4 < nbits) (w : Nat) (s : State) :
    s.withFetchWord nbits w = { s with port := wordBytes nbits w, pos := .none, sched := [] } :=
  if_neg (Nat.not_le.mpr hn)

/-- Settles O50: a command is at the port whole and alone; a key's state and level are put so that its dispatch is
ISR's next move. -/
theorem presentedWordIsNextInstruction : Obligations.PresentedWordIsNextInstruction := by
  intro s nbits w i h
  refine ⟨fun hn => ?_, fun hn => ?_⟩
  · rw [withFetchWord_command hn]
    exact step_quiet_command rfl (wordBytes_whole h hn) rfl
  · rw [decodeTableWord, if_pos hn] at h
    cases h
    refine ⟨presentedKey (BitVec.ofNat 4 w) s, ?_, ?_, rfl⟩
    · exact step_withFetchWord_key hn w s
    · rw [dispatchKey_presentedKey]
      exact BitVec.toNat_ofNat ..

end Sys2Proof.Machine
end

section
/-! O55 and O22: from a state that keeps the invariant no step stops, and what a dispatch leaves to the task it
interrupts (60_exceptions.md R194, R200). -/

namespace Sys2Proof.Machine

/-- Settles O55: S5's fault is ruled out by the checked size, the reserved codes by R35, and the port's refusal by
R165's premise. -/
theorem stepNeverStops : Obligations.StepNeverStops :=
  fun _ hinv hport => step_progress hinv hport

theorem RowFrame.refl (i : Instr) (s : State) : RowFrame i s s := by
  constructor <;> simp

/-- ISR's act has the frame of its key's row, taken or not. -/
theorem isrStep_frame {s t : State} (h : isrStep s = .next t) : RowFrame (decodeKey (dispatchKey s)) s t := by
  rcases isrStep_next h with rfl | ⟨-, row, hrow, rfl⟩
  · exact RowFrame.refl _ _
  · exact hrow.frame s

/-- A step at ISR's turn keeps the frame of a row from the state with its move taken off the schedule. -/
theorem step_isrTurn_frame {s t : State} (hturn : s.IsrTurn) (h : step s = .next t) :
    ∃ i pull, RowFrame i { withSched (movesAfter s) s with upperPull := pull } t := by
  obtain ⟨pull, hisr⟩ := nextStep_isrTurn hturn
  exact ⟨_, pull, isrStep_frame (hisr.symm.trans (step_next h).2)⟩

/-- Settles O22: the frame of the dispatch rows, and the entry's clearing of the latch. -/
theorem dispatchLeavesTaskAlone : Obligations.DispatchLeavesTaskAlone := by
  intro s t hturn h
  obtain ⟨i, pull, hf⟩ := step_isrTurn_frame hturn h
  obtain ⟨hparams, hrxTx, haddr, hchannel⟩ := hf.fixed
  obtain ⟨hpin, hprev, hport, hsched, -⟩ := hf.inputs
  obtain ⟨hbuf, hlen, hstat, hpoll, hretry, hstamp⟩ := hf.sent
  obtain ⟨hen, hfault⟩ := hf.mask
  obtain ⟨hpos, hin, hn, hrssi, hlqi, hidx⟩ := hf.task
  exact ⟨hen, hpos, hpoll, hretry, hin, hstamp, hn, hrssi, hlqi, hidx, haddr, hchannel, hfault, hbuf, hlen, hstat,
    hrxTx, hf.output, hport, hpin, hprev, hparams, hsched, fun hc => TakesDispatch.clears ⟨hturn, hc⟩ h⟩

end Sys2Proof.Machine
end

section
/-! O15, O16 and O53: the state after reset, and reset at any step (70_reset_and_hazards.md sections 1 and 2). -/

namespace Sys2Proof.Machine

/-- Settles O15: each value of R209's table is the record's own. -/
theorem resetValues : Obligations.ResetValues :=
  ⟨fun _ _ => ⟨_, rfl, rfl, rfl, rfl, rfl, rfl, rfl, rfl, rfl, rfl, rfl, rfl, rfl, rfl, rfl, rfl, rfl, rfl, rfl, rfl⟩,
    _, _, rfl, resetParams_wf⟩

/-- A buffer holds the bytes it is filled with, and zero past them (log 5). -/
theorem Memory.read_ofBytes (b : List Byte) {i : Nat} (hi : i < maxFrame) : (Memory.ofBytes b).read i = b.getD i 0 := by
  have htake : (b.take maxFrame).getD i 0 = b.getD i 0 := by
    simp only [List.getD_eq_getElem?_getD, List.getElem?_take_of_lt hi]
  rw [Memory.ofBytes, Memory.read_writeBytes_zero Memory.wf_nil, htake]
  split
  · rfl
  · rename_i hlen
    have hb : b.length ≤ i := by rw [List.length_take] at hlen; omega
    exact (List.getD_eq_default b 0 hb).symm

/-- A move of reset is the block's reset (R211). -/
theorem step_reset {s : State} {tx rx : List Byte} {rest : List Move} (hl : s.Legal)
    (hq : s.sched = .reset tx rx :: rest) : step s = .next (resetBlock tx rx (withSched rest s)) :=
  (step_legal hl).trans (nextStep_move hq)

/-- Settles O16: the move's bytes fill the buffers, and the other fields are `resetBlock`'s own. -/
theorem resetDropsOperation : Obligations.ResetDropsOperation := fun _ tx rx _ hl hq =>
  ⟨_, step_reset hl hq, rfl, rfl, rfl, rfl, rfl, rfl, rfl, rfl, rfl, rfl, rfl, rfl, rfl, rfl, rfl, rfl, rfl, rfl, rfl,
    rfl, rfl, rfl, fun _ hi => ⟨Memory.read_ofBytes tx hi, Memory.read_ofBytes rx hi⟩⟩

theorem bufferOk_nil : BufferOk [] := ⟨Memory.wf_nil, nofun⟩

/-- After reset the device is Unknown and masked, its defaults are legal (00_scope.md R7), and its buffers list
nothing. -/
theorem initial_inv {p : Params} (hp : p.wf) (pin : Bool) : MachineInv (State.initial p pin) := by
  obtain ⟨hmin, hmax, haddr, -⟩ := id hp
  have hd : DataInv (State.initial p pin) :=
    { params := ⟨hp, rfl⟩
      legal := RadioState.unknown.code_legal
      pin := rfl
      address := ⟨haddr, hmin, hmax⟩
      sent := ⟨bufferOk_nil, Nat.zero_le _⟩
      received := bufferOk_nil
      output := bufferOk_nil
      radio := ⟨fun _ => rfl, nofun⟩ }
  exact hd.machineInv trivial

/-- Settles O53: `State.reset` starts with well-formed parameters. -/
theorem resetSatisfiesInv : Obligations.ResetSatisfiesInv :=
  ⟨fun _ pin hp => initial_inv hp pin, initial_inv resetParams_wf false⟩

end Sys2Proof.Machine
end

section
/-! O35, O36 and O40: the hazards, each a dispatch at a yield of an operation, after which, in H1 and H2, the rest of
the operation runs (70_reset_and_hazards.md section 3). -/

namespace Sys2Proof.Machine

/-! ### A dispatch, and then the rest of the operation -/

/-- A scheduled dispatch at a yield runs the row of a given state and level (R136, R137). -/
theorem step_dispatch {s : State} {pull : Bool} {rest : List Move} {r : RadioState} {level : Bool}
    (hq : s.sched = .dispatch pull :: rest) (hy : s.pos.isYield = true) (he : s.irqEn = true) (hp : s.irqPend = true)
    (hs : s.state = r.code) (hb : s.evtPin = level) :
    step s = exec (decodeKey (r.code ++ BitVec.ofBool level)) { withSched rest s with upperPull := pull } := by
  have hk : dispatchKey s = r.code ++ BitVec.ofBool level := by rw [dispatchKey, hs, hb]
  exact hk ▸ step_runs_row (nextStep_move hq) rfl hy he hp

/-- The move `run` takes an operation in progress to its end undisturbed (log 2). -/
theorem step_run {s t : State} {rest : List Move} (hl : s.Legal) (hp : s.pos ≠ .none) (hq : s.sched = .run :: rest)
    (h : resumeOp (withSched [] s) = .next t) : step s = .next (withSched rest t) := by
  rw [step_legal hl, nextStep_move hq]
  exact undisturbed_of_next ((if_neg hp).trans h) rest

/-! ### H1: SEND's race -/

/-- S3's mask to T2 of a frame that fits: SEND comes to its read-back with Transmitting forced (R116), and nothing
announced. -/
theorem sendS3mask_to_readBack {s : State} (hq : s.sched = []) (hs : s.size ≤ maxFrame) :
    ∃ v, sendS3mask s = sendT3 v ∧ v.state = RadioState.transmitting.code ∧ v.events = s.events ∧ v.sched = [] := by
  rw [sendS3mask, goto_quiet (by exact hq), sendS4, goto_quiet (by exact hq), sendS5,
    if_neg (by exact Nat.not_lt.mpr hs), goto_quiet (by exact hq), sendT1, goto_quiet (by exact hq), sendT2,
    goto_quiet (by exact hq)]
  exact ⟨_, rfl, rfl, rfl, hq⟩

/-- From S3's mask SEND ends with a result, in Transmitting, whatever the transceiver answers. -/
theorem sendS3mask_completes {s : State} (hq : s.sched = []) (hs : s.size ≤ maxFrame) :
    ∃ u r, sendS3mask s = .next u ∧ u.state = RadioState.transmitting.code ∧ u.pos = .none ∧
      u.events = s.events ++ [.done r none] := by
  obtain ⟨v, hv, hstate, hevents, hsched⟩ := sendS3mask_to_readBack hq hs
  obtain ⟨u, hu, hpos, hend, -⟩ := sendT3_outcomes v hsched
  rw [hv, ← hevents]
  obtain ⟨hdone, -, -, -, hu'⟩ | ⟨hdone, -, -, -, -, hu'⟩ := hend
  · exact ⟨u, _, hu, hu', hpos, hdone⟩
  · exact ⟨u, _, hu, hu'.trans hstate, hpos, hdone⟩

/-- So it does from Y2 and from Y3: neither step after them looks at `state` before the mask. -/
theorem send_completes_past_poll {s : State} (hp : s.pos = .send .s2 ∨ s.pos = .send .s3mask) (hq : s.sched = [])
    (hs : s.size ≤ maxFrame) :
    ∃ u r, resumeOp s = .next u ∧ u.state = RadioState.transmitting.code ∧ u.pos = .none ∧
      u.events = s.events ++ [.done r none] := by
  rcases hp with hp | hp
  · have hmask : resumeOp s = sendS3mask { s with stamp := s.nodeAddr, pos := .send .s3mask } := by
      rw [resumeOp, hp]
      show sendS2 s = _
      rw [sendS2, if_neg (Nat.not_lt.mpr hs), goto_quiet hq, sendS3, goto_quiet (by exact hq)]
    rw [hmask]
    exact sendS3mask_completes hq hs
  · have hmask : resumeOp s = sendS3mask s := by
      rw [resumeOp, hp]
      rfl
    rw [hmask]
    exact sendS3mask_completes hq hs

/-- Settles O35: the row (Receiving, high), and then the rest of SEND, whose frame leaves all of a reception alone. -/
theorem sendRaceAbandonsReception : Obligations.SendRaceAbandonsReception := by
  intro s pull hpos hs he hp hb hsize hq
  have hy : s.pos.isYield = true := by rcases hpos with h | h <;> (rw [h]; rfl)
  have hne : s.pos ≠ .none := by rcases hpos with h | h <;> (rw [h]; nofun)
  have hstart := (step_dispatch hq hy he hp hs hb).trans
    ((dispatchRowsAct { withSched [.run] s with upperPull := pull } he hp).1 hs hb)
  obtain ⟨u, r, hu, hstate, hnone, hdone⟩ := send_completes_past_poll (s := withSched []
    { withSched [.run] s with upperPull := pull, irqPend := false, state := RadioState.receivingBusy.code })
    hpos rfl hsize
  obtain ⟨hbuf, -, -, -, hrx, hcrc, -⟩ := (resumeOp_frame hu).received
  exact ⟨_, _, r, hstart, rfl, rfl, step_run RadioState.receivingBusy.code_legal hne rfl hu, hstate, hnone, hrx, hcrc,
    (resumeOp_frame hu).fixed.2, hbuf, hdone⟩

/-! ### H2: the torn copy -/

/-- A copy between equal places of two spaces. -/
theorem Memory.read_copyFrom {m : Memory} (h : m.wf) (src : Memory) (a n j : Nat) :
    (m.writeBytes a (src.readBytes a n)).read j = if a ≤ j ∧ j < a + n then src.read j else m.read j := by
  rw [Memory.read_writeBytes h, Memory.length_readBytes]
  split
  · rename_i hj
    rw [Memory.getD_readBytes _ _ _ _ (by omega), Nat.add_sub_cancel' hj.1]
  · rfl

/-- RECEIVE from a yield of its copy, undisturbed: the rest of the latched count comes from `rx_buf` as it is now,
under the latched count and metadata (R167, R168). -/
theorem resumeOp_copy {s : State} (hp : s.pos = .receive .v2) (hq : s.sched = []) (hi : s.copyIdx < s.copyN.toNat) :
    resumeOp s = .next { s with
      pos := .none
      hostOut := s.hostOut.writeBytes s.copyIdx (s.rxBuf.readBytes s.copyIdx (s.copyN.toNat - s.copyIdx))
      copyIdx := s.copyN.toNat
      events := s.events ++
        [.done (BitVec.ofNat 16 s.copyN.toNat) (some { rssi := s.copyRssi, lqi := s.copyLqi })] } := by
  have hleft : s.copyN.toNat - s.copyIdx = s.copyN.toNat - (s.copyIdx + 1) + 1 := by omega
  have hidx : s.copyIdx + 1 + (s.copyN.toNat - (s.copyIdx + 1)) = s.copyN.toNat := by omega
  have hcopy : resumeOp s = receiveV2 (s.copyN.toNat - (s.copyIdx + 1)) (copyByte s) := by
    rw [resumeOp, hp]
    rfl
  rw [hcopy, receiveV2_quiet (by exact hq), hleft, Memory.readBytes, Memory.writeBytes]
  simp only [copyByte, hidx]

/-- HOSTOUT after a copy torn at an index: as before below it and past the count, between them the new frame's bytes
and, beyond its length, the old ones of RXBUF (R168 case 3). -/
theorem read_tornCopy {out rx : Memory} (hout : out.wf) (hrx : rx.wf) (b : List Byte) {idx n : Nat} (hi : idx ≤ n)
    (j : Nat) :
    (out.writeBytes idx ((rx.writeBytes 0 b).readBytes idx (n - idx))).read j =
      if idx ≤ j ∧ j < n then (if j < b.length then b.getD j 0 else rx.read j) else out.read j := by
  rw [Memory.read_copyFrom hout, Nat.add_sub_cancel' hi, Memory.read_writeBytes_zero hrx]

/-- Settles O40: the row (ReceivingBusy, low) delivers, and then the rest of the copy runs. -/
theorem tornReceive : Obligations.TornReceive := by
  intro s pull n rssi raw b a₁ a₂ a₃ rest hpos hi hw hout he hp hs hb hn hst hrssi hraw hlen hcrc hq
  have hy : s.pos.isYield = true := by rw [hpos]; rfl
  have hne : s.pos ≠ .none := by rw [hpos]; nofun
  have hdeliver := (step_dispatch hq hy he hp hs hb).trans
    (deliveredReception { withSched [.run] s with upperPull := pull } n rssi raw b a₁ a₂ a₃ rest he hp hs hb hw hn hst
      hrssi hraw hlen hcrc)
  have hread := read_tornCopy hout hw b hi.le
  refine ⟨_, _, hdeliver, rfl, step_run RadioState.receiving.code_legal hne rfl (resumeOp_copy hpos rfl hi), rfl,
    fun j hj => (hread j).trans (if_neg (by omega)), fun j hj hj' => hlen ▸ (hread j).trans (if_pos ⟨hj, hj'⟩),
    fun j hj => (hread j).trans (if_neg (by omega)), List.append_assoc ..⟩

/-! ### H3: the stale dispatch -/

/-- Settles O36: the row (Transmitting, low), at Y4. -/
theorem staleDispatchAfterCommit : Obligations.StaleDispatchAfterCommit := by
  intro s pull rest hpos hs he hp hb hq
  have hy : s.pos.isYield = true := by rw [hpos]; rfl
  obtain ⟨-, -, -, htxDone, -⟩ := dispatchRowsAct { withSched rest s with upperPull := pull } he hp
  exact (step_dispatch hq hy he hp hs hb).trans (htxDone hs hb)

end Sys2Proof.Machine
end
